-- ==== Sys2Proof/Word.lean ====
section
/-! DEFINITION. The two value types of the machine: bytes of the code space (R30) and Words (R80). -/

namespace Sys2Proof

/-- One byte of the bytecode buffer (R30). -/
abbrev Byte := BitVec 8

/-- A Word: an unsigned integer in `[0, 2^256)` (R80).  Equality is equality of values. -/
abbrev Word := BitVec 256

end Sys2Proof
end

