-- ==== Sys2Proof/Config.lean ====
section
/-! DEFINITION. The implementation parameters of rule R4 and the free values of the ALU port (R92). -/

namespace Sys2Proof

/-- The parameters a build of the hardware fixes (R4, second table).  They are build-time constants
and no registers (R19), so they are no part of `State`. -/
structure Config where
  /-- `STACK_CAPACITY`: how many Words the stack holds (R12, D2). -/
  stackCapacity : Nat
  /-- `OP_PUSH1`: the opcode byte of `Push1` (R54, D1). -/
  opPush1 : Byte
  /-- `OP_DUP1`: the opcode byte of `Dup1` (R54, D1). -/
  opDup1 : Byte
  /-- `OP_SWAP1`: the opcode byte of `Swap1` (R54, D1). -/
  opSwap1 : Byte
  /-- `OP_ISZERO`: the opcode byte of `IsZero` (R54, D1). -/
  opIsZero : Byte
  /-- `CODE_MAX_LEN`: the longest buffer the build accepts, `none` when unbounded (R16, D3). -/
  codeMaxLen : Option Nat
  /-- `DIV_BY_ZERO_RESULT`: what the ALU's divide answers for the divisor zero (R88, D12). -/
  divByZeroResult : Word
  deriving DecidableEq, Repr

/-- `PUSH_MAX` (R4): Push takes N in 1..32. -/
def pushMax : Nat := 32

/-- `DUP_MAX` (R4): Dup takes N in 1..16. -/
def dupMax : Nat := 16

/-- `SWAP_MAX` (R4): Swap takes N in 1..16. -/
def swapMax : Nat := 16

/-- `WORD_BYTES` (R4): the canonical form of a Word has 32 bytes. -/
def wordBytes : Nat := 32

/-- What a build's parameters must satisfy: the capacity bound of R4 and D2, and R60's constraints on
the four opcode bases (each family's range lies inside a byte, and the three ranges and the one byte
of `IsZero` are pairwise disjoint).  The step and the transactions of a build are defined without
it, and rules that need it name it: the test vectors of the spec run capacities below 17. -/
abbrev Config.Valid (c : Config) : Prop :=
  17 ≤ c.stackCapacity ∧
  c.opPush1.toNat + 31 ≤ 255 ∧ c.opDup1.toNat + 15 ≤ 255 ∧ c.opSwap1.toNat + 15 ≤ 255 ∧
  (c.opPush1.toNat + 31 < c.opDup1.toNat ∨ c.opDup1.toNat + 15 < c.opPush1.toNat) ∧
  (c.opPush1.toNat + 31 < c.opSwap1.toNat ∨ c.opSwap1.toNat + 15 < c.opPush1.toNat) ∧
  (c.opDup1.toNat + 15 < c.opSwap1.toNat ∨ c.opSwap1.toNat + 15 < c.opDup1.toNat) ∧
  (c.opIsZero.toNat < c.opPush1.toNat ∨ c.opPush1.toNat + 31 < c.opIsZero.toNat) ∧
  (c.opIsZero.toNat < c.opDup1.toNat ∨ c.opDup1.toNat + 15 < c.opIsZero.toNat) ∧
  (c.opIsZero.toNat < c.opSwap1.toNat ∨ c.opSwap1.toNat + 15 < c.opIsZero.toNat)

/-- The build that `exec` and `step` run: the spec's default for every open parameter (R4; the
opcode bytes and the divide-by-zero result are the spec's PRESUMED values, log entries 1, 2, 3, 4).
Every operation of the machine takes its build as an argument: `decodeWith`, `fetchWith`, `execWith`,
`stepWith` and `transactWith` are the machine of any build, and `decode`, `fetch`, `exec`, `step`,
`transact` and the 65 meanings are that machine at this build (DESIGN CHOICE, log entry 20). -/
def Config.build : Config where
  stackCapacity := 1024
  opPush1 := 0x60
  opDup1 := 0x80
  opSwap1 := 0x90
  opIsZero := 0x15
  codeMaxLen := none
  divByZeroResult := 0

/-- FREE VALUE (R92, U8; log entry 5): the Word the ALU port shows on `r` for `EQ` and `ISZ`, where
the spec leaves it unspecified.  The port is combinational, so it depends on the inputs only. -/
opaque Config.freeAluWord : BitVec 3 → Word → Word → Word

/-- FREE VALUE (R92, U8; log entry 5): the bit the ALU port shows on `t` for `ADD`, `SUB`, `MUL` and
`DIV`, where the spec leaves it unspecified. -/
opaque Config.freeAluBit : BitVec 3 → Word → Word → Bool

end Sys2Proof
end

