-- ==== Sys2Proof/Syntax.lean ====
section
/-! DEFINITION. The instruction set: one constructor per row of the opcode table (R1, R54), and the
view of an instruction as a family and a modifier (R53). -/

namespace Sys2Proof

/-- The 65 instructions of the BlockchainSharp core opcode set (R1).

A Push carries `imm`, the operand bytes `imm[0] .. imm[N-1]` of format `P` (R52), most significant
first.  The decoder puts there the bytes that follow the opcode byte, at most N of them; when fewer
than N are left in the buffer the instruction is truncated (R243): it is not well formed, and its
meaning is the fault `TruncatedOperand`.  Dup, Swap and IsZero have no operand bytes (R51). -/
inductive Instr where
  /-- `Push1` (R151), default opcode 0x60, length 2. -/
  | push1 (imm : List Byte)
  /-- `Push2` (R152), default opcode 0x61, length 3. -/
  | push2 (imm : List Byte)
  /-- `Push3` (R153), default opcode 0x62, length 4. -/
  | push3 (imm : List Byte)
  /-- `Push4` (R154), default opcode 0x63, length 5. -/
  | push4 (imm : List Byte)
  /-- `Push5` (R155), default opcode 0x64, length 6. -/
  | push5 (imm : List Byte)
  /-- `Push6` (R156), default opcode 0x65, length 7. -/
  | push6 (imm : List Byte)
  /-- `Push7` (R157), default opcode 0x66, length 8. -/
  | push7 (imm : List Byte)
  /-- `Push8` (R158), default opcode 0x67, length 9. -/
  | push8 (imm : List Byte)
  /-- `Push9` (R159), default opcode 0x68, length 10. -/
  | push9 (imm : List Byte)
  /-- `Push10` (R160), default opcode 0x69, length 11. -/
  | push10 (imm : List Byte)
  /-- `Push11` (R161), default opcode 0x6a, length 12. -/
  | push11 (imm : List Byte)
  /-- `Push12` (R162), default opcode 0x6b, length 13. -/
  | push12 (imm : List Byte)
  /-- `Push13` (R163), default opcode 0x6c, length 14. -/
  | push13 (imm : List Byte)
  /-- `Push14` (R164), default opcode 0x6d, length 15. -/
  | push14 (imm : List Byte)
  /-- `Push15` (R165), default opcode 0x6e, length 16. -/
  | push15 (imm : List Byte)
  /-- `Push16` (R166), default opcode 0x6f, length 17. -/
  | push16 (imm : List Byte)
  /-- `Push17` (R167), default opcode 0x70, length 18. -/
  | push17 (imm : List Byte)
  /-- `Push18` (R168), default opcode 0x71, length 19. -/
  | push18 (imm : List Byte)
  /-- `Push19` (R169), default opcode 0x72, length 20. -/
  | push19 (imm : List Byte)
  /-- `Push20` (R170), default opcode 0x73, length 21. -/
  | push20 (imm : List Byte)
  /-- `Push21` (R171), default opcode 0x74, length 22. -/
  | push21 (imm : List Byte)
  /-- `Push22` (R172), default opcode 0x75, length 23. -/
  | push22 (imm : List Byte)
  /-- `Push23` (R173), default opcode 0x76, length 24. -/
  | push23 (imm : List Byte)
  /-- `Push24` (R174), default opcode 0x77, length 25. -/
  | push24 (imm : List Byte)
  /-- `Push25` (R175), default opcode 0x78, length 26. -/
  | push25 (imm : List Byte)
  /-- `Push26` (R176), default opcode 0x79, length 27. -/
  | push26 (imm : List Byte)
  /-- `Push27` (R177), default opcode 0x7a, length 28. -/
  | push27 (imm : List Byte)
  /-- `Push28` (R178), default opcode 0x7b, length 29. -/
  | push28 (imm : List Byte)
  /-- `Push29` (R179), default opcode 0x7c, length 30. -/
  | push29 (imm : List Byte)
  /-- `Push30` (R180), default opcode 0x7d, length 31. -/
  | push30 (imm : List Byte)
  /-- `Push31` (R181), default opcode 0x7e, length 32. -/
  | push31 (imm : List Byte)
  /-- `Push32` (R182), default opcode 0x7f, length 33. -/
  | push32 (imm : List Byte)
  /-- `Dup1` (R191), default opcode 0x80, length 1. -/
  | dup1
  /-- `Dup2` (R192), default opcode 0x81, length 1. -/
  | dup2
  /-- `Dup3` (R193), default opcode 0x82, length 1. -/
  | dup3
  /-- `Dup4` (R194), default opcode 0x83, length 1. -/
  | dup4
  /-- `Dup5` (R195), default opcode 0x84, length 1. -/
  | dup5
  /-- `Dup6` (R196), default opcode 0x85, length 1. -/
  | dup6
  /-- `Dup7` (R197), default opcode 0x86, length 1. -/
  | dup7
  /-- `Dup8` (R198), default opcode 0x87, length 1. -/
  | dup8
  /-- `Dup9` (R199), default opcode 0x88, length 1. -/
  | dup9
  /-- `Dup10` (R200), default opcode 0x89, length 1. -/
  | dup10
  /-- `Dup11` (R201), default opcode 0x8a, length 1. -/
  | dup11
  /-- `Dup12` (R202), default opcode 0x8b, length 1. -/
  | dup12
  /-- `Dup13` (R203), default opcode 0x8c, length 1. -/
  | dup13
  /-- `Dup14` (R204), default opcode 0x8d, length 1. -/
  | dup14
  /-- `Dup15` (R205), default opcode 0x8e, length 1. -/
  | dup15
  /-- `Dup16` (R206), default opcode 0x8f, length 1. -/
  | dup16
  /-- `Swap1` (R211), default opcode 0x90, length 1. -/
  | swap1
  /-- `Swap2` (R212), default opcode 0x91, length 1. -/
  | swap2
  /-- `Swap3` (R213), default opcode 0x92, length 1. -/
  | swap3
  /-- `Swap4` (R214), default opcode 0x93, length 1. -/
  | swap4
  /-- `Swap5` (R215), default opcode 0x94, length 1. -/
  | swap5
  /-- `Swap6` (R216), default opcode 0x95, length 1. -/
  | swap6
  /-- `Swap7` (R217), default opcode 0x96, length 1. -/
  | swap7
  /-- `Swap8` (R218), default opcode 0x97, length 1. -/
  | swap8
  /-- `Swap9` (R219), default opcode 0x98, length 1. -/
  | swap9
  /-- `Swap10` (R220), default opcode 0x99, length 1. -/
  | swap10
  /-- `Swap11` (R221), default opcode 0x9a, length 1. -/
  | swap11
  /-- `Swap12` (R222), default opcode 0x9b, length 1. -/
  | swap12
  /-- `Swap13` (R223), default opcode 0x9c, length 1. -/
  | swap13
  /-- `Swap14` (R224), default opcode 0x9d, length 1. -/
  | swap14
  /-- `Swap15` (R225), default opcode 0x9e, length 1. -/
  | swap15
  /-- `Swap16` (R226), default opcode 0x9f, length 1. -/
  | swap16
  /-- `IsZero` (R230), default opcode 0x15, length 1. -/
  | isZero
  deriving DecidableEq, Repr

/-- An instruction as its family and modifier N (R53): what the opcode byte encodes, with a Push's
operand bytes beside it. -/
inductive Form where
  /-- `PushN` with its operand bytes. -/
  | push (n : Nat) (imm : List Byte)
  /-- `DupN`. -/
  | dup (n : Nat)
  /-- `SwapN`. -/
  | swap (n : Nat)
  /-- `IsZero`, the one instruction outside the three families. -/
  | isZero
  deriving DecidableEq, Repr

/-- The family and modifier of each of the 65 instructions. -/
def Instr.form (i : Instr) : Form :=
  match i with
  | .push1 imm => .push 1 imm
  | .push2 imm => .push 2 imm
  | .push3 imm => .push 3 imm
  | .push4 imm => .push 4 imm
  | .push5 imm => .push 5 imm
  | .push6 imm => .push 6 imm
  | .push7 imm => .push 7 imm
  | .push8 imm => .push 8 imm
  | .push9 imm => .push 9 imm
  | .push10 imm => .push 10 imm
  | .push11 imm => .push 11 imm
  | .push12 imm => .push 12 imm
  | .push13 imm => .push 13 imm
  | .push14 imm => .push 14 imm
  | .push15 imm => .push 15 imm
  | .push16 imm => .push 16 imm
  | .push17 imm => .push 17 imm
  | .push18 imm => .push 18 imm
  | .push19 imm => .push 19 imm
  | .push20 imm => .push 20 imm
  | .push21 imm => .push 21 imm
  | .push22 imm => .push 22 imm
  | .push23 imm => .push 23 imm
  | .push24 imm => .push 24 imm
  | .push25 imm => .push 25 imm
  | .push26 imm => .push 26 imm
  | .push27 imm => .push 27 imm
  | .push28 imm => .push 28 imm
  | .push29 imm => .push 29 imm
  | .push30 imm => .push 30 imm
  | .push31 imm => .push 31 imm
  | .push32 imm => .push 32 imm
  | .dup1 => .dup 1
  | .dup2 => .dup 2
  | .dup3 => .dup 3
  | .dup4 => .dup 4
  | .dup5 => .dup 5
  | .dup6 => .dup 6
  | .dup7 => .dup 7
  | .dup8 => .dup 8
  | .dup9 => .dup 9
  | .dup10 => .dup 10
  | .dup11 => .dup 11
  | .dup12 => .dup 12
  | .dup13 => .dup 13
  | .dup14 => .dup 14
  | .dup15 => .dup 15
  | .dup16 => .dup 16
  | .swap1 => .swap 1
  | .swap2 => .swap 2
  | .swap3 => .swap 3
  | .swap4 => .swap 4
  | .swap5 => .swap 5
  | .swap6 => .swap 6
  | .swap7 => .swap 7
  | .swap8 => .swap 8
  | .swap9 => .swap 9
  | .swap10 => .swap 10
  | .swap11 => .swap 11
  | .swap12 => .swap 12
  | .swap13 => .swap 13
  | .swap14 => .swap 14
  | .swap15 => .swap 15
  | .swap16 => .swap 16
  | .isZero => .isZero

end Sys2Proof
end

