-- ==== Sys2Proof/WellFormed.lean ====
section
/-! DEFINITION. Which instruction terms stand for an encoding of the hardware (R52). -/

namespace Sys2Proof

/-- The one check of the syntax: a `PushN` carries exactly N operand bytes (R52, "1 + N bytes").
The modifier itself is in range by construction, and the other instructions have no operand. -/
def Instr.wf (i : Instr) : Bool :=
  match i.form with
  | .push n imm => imm.length == n
  | .dup _ => true
  | .swap _ => true
  | .isZero => true

/-- The instruction has a complete encoding (R52). -/
abbrev Instr.WellFormed (i : Instr) : Prop := i.wf = true

end Sys2Proof
end

