-- ==== Sys2Proof/Decode.lean ====
section
/-! DEFINITION. The decoder (R55, R57), the encoder (R53, R52) and the reading of the opcode table's
words.  Decoder and encoder take the opcode map as an argument: rule R54's values are parameters and
the rules hold for any map that satisfies R60. -/

namespace Sys2Proof

/-- What the opcode byte says on its own: R55's answer, a family with its modifier N, or Invalid. -/
inductive Decoded where
  | push (n : Nat)
  | dup (n : Nat)
  | swap (n : Nat)
  | isZero
  | invalid
  deriving DecidableEq, Repr

/-- Why a byte sequence holds no instruction at its start. -/
inductive DecodeError where
  /-- There is no byte at all.  A step never meets it: it is taken only when `pc < len` (R122). -/
  | noByte
  /-- The opcode byte is not one of the 65 (R58). -/
  | invalidOpcode (b : Byte)
  deriving DecidableEq, Repr

/-- R55: decode one opcode byte by range membership. -/
def decodeByte (c : Config) (b : Byte) : Decoded :=
  if c.opPush1.toNat ≤ b.toNat ∧ b.toNat ≤ c.opPush1.toNat + 31 then
    .push (b.toNat - c.opPush1.toNat + 1)
  else if c.opDup1.toNat ≤ b.toNat ∧ b.toNat ≤ c.opDup1.toNat + 15 then
    .dup (b.toNat - c.opDup1.toNat + 1)
  else if c.opSwap1.toNat ≤ b.toNat ∧ b.toNat ≤ c.opSwap1.toNat + 15 then
    .swap (b.toNat - c.opSwap1.toNat + 1)
  else if b = c.opIsZero then .isZero
  else .invalid

/-- R57: the length of the instruction, a function of the opcode byte alone; none for an invalid
byte. -/
def decodedLength (d : Decoded) : Option Nat :=
  match d with
  | .push n => some (1 + n)
  | .dup _ => some 1
  | .swap _ => some 1
  | .isZero => some 1
  | .invalid => none

/-- The `PushN` constructor of modifier N (R151 to R182). -/
def Instr.ofPush (n : Nat) (imm : List Byte) : Option Instr :=
  match n with
  | 1 => some (.push1 imm)
  | 2 => some (.push2 imm)
  | 3 => some (.push3 imm)
  | 4 => some (.push4 imm)
  | 5 => some (.push5 imm)
  | 6 => some (.push6 imm)
  | 7 => some (.push7 imm)
  | 8 => some (.push8 imm)
  | 9 => some (.push9 imm)
  | 10 => some (.push10 imm)
  | 11 => some (.push11 imm)
  | 12 => some (.push12 imm)
  | 13 => some (.push13 imm)
  | 14 => some (.push14 imm)
  | 15 => some (.push15 imm)
  | 16 => some (.push16 imm)
  | 17 => some (.push17 imm)
  | 18 => some (.push18 imm)
  | 19 => some (.push19 imm)
  | 20 => some (.push20 imm)
  | 21 => some (.push21 imm)
  | 22 => some (.push22 imm)
  | 23 => some (.push23 imm)
  | 24 => some (.push24 imm)
  | 25 => some (.push25 imm)
  | 26 => some (.push26 imm)
  | 27 => some (.push27 imm)
  | 28 => some (.push28 imm)
  | 29 => some (.push29 imm)
  | 30 => some (.push30 imm)
  | 31 => some (.push31 imm)
  | 32 => some (.push32 imm)
  | _ => none

/-- The `DupN` constructor of modifier N (R191 to R206). -/
def Instr.ofDup (n : Nat) : Option Instr :=
  match n with
  | 1 => some .dup1
  | 2 => some .dup2
  | 3 => some .dup3
  | 4 => some .dup4
  | 5 => some .dup5
  | 6 => some .dup6
  | 7 => some .dup7
  | 8 => some .dup8
  | 9 => some .dup9
  | 10 => some .dup10
  | 11 => some .dup11
  | 12 => some .dup12
  | 13 => some .dup13
  | 14 => some .dup14
  | 15 => some .dup15
  | 16 => some .dup16
  | _ => none

/-- The `SwapN` constructor of modifier N (R211 to R226). -/
def Instr.ofSwap (n : Nat) : Option Instr :=
  match n with
  | 1 => some .swap1
  | 2 => some .swap2
  | 3 => some .swap3
  | 4 => some .swap4
  | 5 => some .swap5
  | 6 => some .swap6
  | 7 => some .swap7
  | 8 => some .swap8
  | 9 => some .swap9
  | 10 => some .swap10
  | 11 => some .swap11
  | 12 => some .swap12
  | 13 => some .swap13
  | 14 => some .swap14
  | 15 => some .swap15
  | 16 => some .swap16
  | _ => none

/-- The instruction of a decoded opcode byte, given the bytes that follow it.  A Push takes as its
operand the next N bytes, or those that are left (R52, R243). -/
def Instr.ofDecoded (d : Decoded) (following : List Byte) : Option Instr :=
  match d with
  | .push n => Instr.ofPush n (following.take n)
  | .dup n => Instr.ofDup n
  | .swap n => Instr.ofSwap n
  | .isZero => some .isZero
  | .invalid => none

/-- How many of the bytes after the opcode byte belong to the instruction (R50). -/
def operandLength (d : Decoded) : Nat :=
  match d with
  | .push n => n
  | .dup _ => 0
  | .swap _ => 0
  | .isZero => 0
  | .invalid => 0

/-- Decode the instruction at the start of a byte sequence: the instruction and the bytes after it. -/
def decodeWith (c : Config) (bytes : List Byte) : Except DecodeError (Instr × List Byte) :=
  match bytes with
  | [] => .error .noByte
  | b :: following =>
    match Instr.ofDecoded (decodeByte c b) following with
    | some i => .ok (i, following.drop (operandLength (decodeByte c b)))
    | none => .error (.invalidOpcode b)

/-- The decoder of the modelled build. -/
def decode (bytes : List Byte) : Except DecodeError (Instr × List Byte) :=
  decodeWith Config.build bytes

/-- R53: the byte `base_opcode + (N - 1)` of a family member. -/
def familyOpcode (base : Byte) (n : Nat) : Byte := BitVec.ofNat 8 (base.toNat + (n - 1))

/-- R53: the opcode byte of an instruction. -/
def opcodeOf (c : Config) (f : Form) : Byte :=
  match f with
  | .push n _ => familyOpcode c.opPush1 n
  | .dup n => familyOpcode c.opDup1 n
  | .swap n => familyOpcode c.opSwap1 n
  | .isZero => c.opIsZero

/-- The operand bytes of an instruction, in code order (R51, R52). -/
def operandsOf (f : Form) : List Byte :=
  match f with
  | .push _ imm => imm
  | .dup _ => []
  | .swap _ => []
  | .isZero => []

/-- The encoding of an instruction: its opcode byte, then its operand bytes (R50 to R53). -/
def encodeWith (c : Config) (i : Instr) : List Byte :=
  opcodeOf c i.form :: operandsOf i.form

/-- The encoder of the modelled build. -/
def encode (i : Instr) : List Byte := encodeWith Config.build i

/-- The longest instruction has 33 bytes (R50). -/
def maxInstrBytes : Nat := 33

/-- An opcode-table word laid out as the hardware stores it: bits 7..0 are the byte at the lowest
offset, and every bit above `nbits` is 0, up to the longest instruction. -/
def tableBytes (nbits w : Nat) : List Byte :=
  (List.range maxInstrBytes).map fun k => BitVec.ofNat 8 ((w >>> (8 * k)) % 2 ^ min 8 (nbits - 8 * k))

/-- The instruction the decoder reads from an opcode-table word. -/
def decodeTableWord (nbits w : Nat) : Option Instr :=
  match decode (tableBytes nbits w) with
  | .ok (i, _) => some i
  | .error _ => none

end Sys2Proof
end

