-- ==== Sys2Proof/Machine/State.lean ====
section
/-! DEFINITION. The architectural state (R10), the five faults (R240), the refusals of a step, and
the state after reset (R270). -/

namespace Sys2Proof.Machine

/-- The five fault kinds (R240), in the source's order.

An instruction that raises one TAKES it: the meaning answers a next state whose fault latch holds the
kind (R245).  So these values stand in the latch `State.fault` and in the error responses of the
host's stack port (R260), and no meaning and no step ends in `Outcome.fault`. -/
inductive Fault where
  /-- Raised by `IsZero` on an empty stack (R241); also the host port's answer for `ReadTop` and
  `Pop` on an empty stack.  Taking it is the spec's own effect, neither safe nor unsafe by choice. -/
  | stackUnderflow
  /-- Raised by `PushN` and `DupN` on a full stack (R242).  Exact for the capacity of the build;
  unsafe where a build's capacity differs from `Config.build` (log entry 1). -/
  | stackOverflow
  /-- Raised by `DupN` when `size < N` and by `SwapN` when `size < N + 1` (R246); also the host
  port's answer for `ReadElementAt`.  The spec's own effect. -/
  | indexOutOfRange
  /-- Raised by `PushN` when fewer than N bytes follow the opcode byte (R243).  The spec's own
  effect. -/
  | truncatedOperand
  /-- Raised by a step whose opcode byte is none of the 65 (R244).  The spec's own effect. -/
  | invalidOpcode
  deriving DecidableEq, Repr

/-- Why a step is refused. -/
inductive Refusal where
  /-- The instruction has no meaning in this model yet; raised by no arm of `exec` in this model.
  Safe: a run stops there. -/
  | notModelled (mnemonic : String)
  /-- Raised by `step` when `status` is Halted or Faulted: the sequencer has no step and the `Step`
  transaction is refused with no change (R122, R127).  Safe, and the spec's own answer. -/
  | notRunning
  deriving DecidableEq, Repr

/-- R10: the complete architectural state `(code, len, pc, S, fault)`. -/
structure State where
  /-- The bytecode buffer: the byte at offset `a` is the list's element `a`, and no offset beyond the
  last element exists (R30, R39).  Its length is the spec's `len`. -/
  code : List Byte
  /-- The program counter, a byte offset into `code`; it has no width (R15, R16). -/
  pc : Nat
  /-- The stack `S`, top first: element `i` is `S[i]` (R6, R11). -/
  stack : List Word
  /-- The fault latch: `none`, or the kind of the one fault that ended the run (R18). -/
  fault : Option Fault
  deriving DecidableEq, Repr

/-- `len` (R10): the length of the bytecode buffer in bytes. -/
def State.len (s : State) : Nat := s.code.length

/-- `size` (R100): the number of elements of the stack. -/
def State.size (s : State) : Nat := s.stack.length

/-- R270: the machine right after reset: no code, `pc` 0, an empty stack, no fault. -/
def State.reset : State where
  code := []
  pc := 0
  stack := []
  fault := none

end Sys2Proof.Machine
end

