-- ==== Sys2Proof/Machine/Operands.lean ====
section
/-! DEFINITION. The operand forms (R46): the code space as it is read (R30), big-endian values (R6,
R34), and the immediate of a Push.  The other operand form, a stack depth, is read through the stack
engine (`Stack.lean`). -/

namespace Sys2Proof.Machine

/-- R30: the byte at offset `a`; `none` when `a` lies outside the buffer, where nothing exists
(R39). -/
def readByte (s : State) (a : Nat) : Option Byte := s.code[a]?

/-- R6: `MemRead(addr, n)`, the `n` bytes from `addr` on, defined only when `addr + n <= len`. -/
def memRead (s : State) (addr n : Nat) : Option (List Byte) :=
  if addr + n ≤ s.len then some ((s.code.drop addr).take n) else none

/-- The code space as a list of (offset, byte) cells. -/
def codeCells (s : State) : List Host.Cell := s.code.zipIdx.map fun p => (p.2, p.1)

/-- The canonical form of a list of cells: offsets strictly rising.  An unlisted offset reads as
nothing, so no cell can repeat what an unlisted offset reads as. -/
def Memory.wf (cells : List Host.Cell) : Bool :=
  match cells with
  | [] => true
  | [_] => true
  | a :: b :: rest => decide (a.1 < b.1) && Memory.wf (b :: rest)

/-- R121: the bytes from `pc` on, the opcode byte first. -/
def fetchBytes (s : State) : List Byte := s.code.drop s.pc

/-- R6: `be(bytes)`, the big-endian value of a byte sequence; 0 for the empty one. -/
def be (bytes : List Byte) : Nat := bytes.foldl (fun acc b => 256 * acc + b.toNat) 0

/-- R82: `W(n)`, the Word of value `n mod 2^256`. -/
def wordOf (n : Nat) : Word := BitVec.ofNat 256 n

/-- R83: `fromBytes`, big-endian, zero-padded on the left; of a sequence longer than 32 bytes the
low-order 32 count, and the empty sequence gives Zero (D15). -/
def fromBytes (bytes : List Byte) : Word :=
  wordOf (be (bytes.drop (bytes.length - wordBytes)))

/-- The operand bytes of a `PushN`: its N immediate bytes, `none` when fewer than N followed the
opcode byte (R150, R243).  A longer list is no encoding (`Instr.wf`, log entry 8); its first N bytes
count, as `MemRead(pc + 1, N)` reads them. -/
def pushOperand (n : Nat) (imm : List Byte) : Option (List Byte) :=
  if imm.length < n then none else some (imm.take n)

end Sys2Proof.Machine
end

