-- ==== Sys2Proof/Machine/Flags.lean ====
section
/-! DEFINITION. The machine has no flags and no condition codes (R17).  This file holds what there is
in their place: the two one-bit tests of the ALU (R89, R90), the derived `status` (R14) and the
host-visible registers with their codes (R18, R19). -/

namespace Sys2Proof.Machine

/-- R89: `equals(a, b)`, equality by value. -/
def wordEquals (a b : Word) : Bool := a == b

/-- R90: `isZero(a)`, true exactly when all 256 bits are 0. -/
def wordIsZero (a : Word) : Bool := a == 0

/-- R14: the three values of `status`. -/
inductive Status where
  | halted
  | running
  | faulted
  deriving DecidableEq, Repr

/-- R14: `status`, computed from `fault`, `pc` and `len`. -/
def status (s : State) : Status :=
  match s.fault with
  | some _ => .faulted
  | none => if s.pc < s.len then .running else .halted

/-- R19: the code of `status` in the register `STATUS`; 3 never occurs. -/
def statusCode (v : Status) : Nat :=
  match v with
  | .halted => 0
  | .running => 1
  | .faulted => 2

/-- R18: the code of the fault latch; 6 and 7 never occur. -/
def faultCode (k : Option Fault) : Nat :=
  match k with
  | none => 0
  | some .stackUnderflow => 1
  | some .stackOverflow => 2
  | some .indexOutOfRange => 3
  | some .truncatedOperand => 4
  | some .invalidOpcode => 5

/-- R19: the host-visible register of a number, `none` for a number that names no register. -/
def readRegister (s : State) (number : Nat) : Option Nat :=
  match number with
  | 0 => some (statusCode (status s))
  | 1 => some (faultCode s.fault)
  | 2 => some s.pc
  | 3 => some s.len
  | 4 => some s.size
  | _ => none

end Sys2Proof.Machine
end

