-- ==== Sys2Proof/Machine/Stack.lean ====
section
/-! DEFINITION. The stack engine's seven operations (R100 to R107), over the stack as a list of Words,
top first, and a capacity.  An operation answers its fault kind or its result and tests before it
writes (R110).  The RAM-and-pointer form of R109 is informative and its stale cells are no state. -/

namespace Sys2Proof.Machine

/-- R101: `push(v)`. -/
def stackPush (cap : Nat) (v : Word) (S : List Word) : Except Fault (List Word) :=
  if S.length = cap then .error .stackOverflow else .ok (v :: S)

/-- R102: `pop()`, the old top and the remaining stack. -/
def stackPop (S : List Word) : Except Fault (Word × List Word) :=
  match S with
  | [] => .error .stackUnderflow
  | v :: rest => .ok (v, rest)

/-- R103: `top()`. -/
def stackTop (S : List Word) : Except Fault Word :=
  match S with
  | [] => .error .stackUnderflow
  | v :: _ => .ok v

/-- R104: `elementAt(i)`. -/
def stackElementAt (i : Nat) (S : List Word) : Except Fault Word :=
  match S[i]? with
  | none => .error .indexOutOfRange
  | some v => .ok v

/-- R105: `duplicate(i)`, which "pushes a copy of `elementAt(i)`": the depth is tested before the
capacity. -/
def stackDuplicate (cap i : Nat) (S : List Word) : Except Fault (List Word) :=
  match stackElementAt i S with
  | .error k => .error k
  | .ok v => stackPush cap v S

/-- R106: `swap(i)`.  Both reads come before both writes. -/
def stackSwap (i : Nat) (S : List Word) : Except Fault (List Word) :=
  match S[0]?, S[i]? with
  | some a, some b => .ok ((S.set 0 b).set i a)
  | _, _ => .error .indexOutOfRange

/-- R107: `size`. -/
def stackSize (S : List Word) : Nat := S.length

end Sys2Proof.Machine
end

