-- ==== Sys2Proof/Machine/Ops.lean ====
section
/-! DEFINITION. The shared operations of a step: taking a fault (R245), completing an instruction
(R123), and fetching the next one (R121, R122). -/

namespace Sys2Proof.Machine

/-- R245, R248: `raise F`.  The latch takes the kind and nothing else changes: there is no vector, no
saved register and no mode (R245).  There is no return from a fault beside it (R249): only
`State.reset` clears the latch. -/
def raiseFault (k : Fault) (s : State) : State := { s with fault := some k }

/-- R123: an instruction of `len` bytes completes with the stack `S`. -/
def complete (len : Nat) (S : List Word) (s : State) : State :=
  { s with stack := S, pc := s.pc + len }

/-- The end of an instruction of `len` bytes: it completes with the stack its stack operation
answers, or takes the fault that operation raises (R123). -/
def finish (len : Nat) (result : Except Fault (List Word)) (s : State) :
    Host.Outcome State Fault Refusal :=
  match result with
  | .ok S => .next (complete len S s)
  | .error k => .next (raiseFault k s)

/-- What the sequencer finds when it is asked for a step. -/
inductive Fetched where
  /-- `status` is not Running: there is no step (R122). -/
  | notRunning
  /-- The opcode byte is Invalid (R244). -/
  | invalid
  /-- The decoded instruction. -/
  | instr (i : Instr)
  deriving DecidableEq, Repr

/-- R121 to R123: fetch the opcode byte at `pc` and decode the instruction there, by the opcode map of
the build `c` (R54). -/
def fetchWith (c : Config) (s : State) : Fetched :=
  match status s with
  | .running =>
    match decodeWith c (fetchBytes s) with
    | .ok (i, _) => .instr i
    | .error _ => .invalid
  | .halted => .notRunning
  | .faulted => .notRunning

/-- The fetch of the modelled build. -/
def fetch (s : State) : Fetched := fetchWith Config.build s

/-- R123: what a step does with what it fetched, given the meanings of the instructions.  A machine that
is not Running has no step (R122, R127), an invalid opcode byte is the fault `InvalidOpcode` (R244),
and a decoded instruction has its meaning. -/
def afterFetch (run : Instr → State → Host.Outcome State Fault Refusal) (found : Fetched)
    (s : State) : Host.Outcome State Fault Refusal :=
  match found with
  | .notRunning => .refused .notRunning
  | .invalid => .next (raiseFault .invalidOpcode s)
  | .instr i => run i s

end Sys2Proof.Machine
end

