-- ==== Sys2Proof/Machine/Dup.lean ====
section
/-! DEFINITION. The Dup family (R190 to R206). -/

namespace Sys2Proof.Machine

/-- R190: `ExecDup(N)`, which calls `duplicate(N - 1)`: the modifier is one-based. -/
def dupN (c : Config) (n : Nat) (s : State) : Host.Outcome State Fault Refusal :=
  finish 1 (stackDuplicate c.stackCapacity (n - 1) s.stack) s

/-- R191: `Dup1`. -/
def execDup1 (s : State) : Host.Outcome State Fault Refusal := dupN Config.build 1 s

/-- R192: `Dup2`. -/
def execDup2 (s : State) : Host.Outcome State Fault Refusal := dupN Config.build 2 s

/-- R193: `Dup3`. -/
def execDup3 (s : State) : Host.Outcome State Fault Refusal := dupN Config.build 3 s

/-- R194: `Dup4`. -/
def execDup4 (s : State) : Host.Outcome State Fault Refusal := dupN Config.build 4 s

/-- R195: `Dup5`. -/
def execDup5 (s : State) : Host.Outcome State Fault Refusal := dupN Config.build 5 s

/-- R196: `Dup6`. -/
def execDup6 (s : State) : Host.Outcome State Fault Refusal := dupN Config.build 6 s

/-- R197: `Dup7`. -/
def execDup7 (s : State) : Host.Outcome State Fault Refusal := dupN Config.build 7 s

/-- R198: `Dup8`. -/
def execDup8 (s : State) : Host.Outcome State Fault Refusal := dupN Config.build 8 s

/-- R199: `Dup9`. -/
def execDup9 (s : State) : Host.Outcome State Fault Refusal := dupN Config.build 9 s

/-- R200: `Dup10`. -/
def execDup10 (s : State) : Host.Outcome State Fault Refusal := dupN Config.build 10 s

/-- R201: `Dup11`. -/
def execDup11 (s : State) : Host.Outcome State Fault Refusal := dupN Config.build 11 s

/-- R202: `Dup12`. -/
def execDup12 (s : State) : Host.Outcome State Fault Refusal := dupN Config.build 12 s

/-- R203: `Dup13`. -/
def execDup13 (s : State) : Host.Outcome State Fault Refusal := dupN Config.build 13 s

/-- R204: `Dup14`. -/
def execDup14 (s : State) : Host.Outcome State Fault Refusal := dupN Config.build 14 s

/-- R205: `Dup15`. -/
def execDup15 (s : State) : Host.Outcome State Fault Refusal := dupN Config.build 15 s

/-- R206: `Dup16`. -/
def execDup16 (s : State) : Host.Outcome State Fault Refusal := dupN Config.build 16 s

end Sys2Proof.Machine
end

