-- ==== Sys2Proof/Machine/Alu.lean ====
section
/-! DEFINITION. The Word arithmetic unit (R80 to R92): constants, conversions, arithmetic and the ALU
port.  It has no state and raises no fault (R91).  No instruction adds, subtracts, multiplies or
divides: those are reached through the port only. -/

namespace Sys2Proof.Machine

/-- R81: `Zero`. -/
def wordZero : Word := wordOf 0

/-- R81: `One`. -/
def wordOne : Word := wordOf 1

/-- R81: `Two`. -/
def wordTwo : Word := wordOf 2

/-- R82: `fromInt`, reduced modulo `2^256`; a negative integer is outside its domain and is refused
(U14). -/
def fromInt (v : Int) : Option Word := if v < 0 then none else some (wordOf v.toNat)

/-- R84: `toBytes`, the 32-byte canonical form, `B[k] = w[255-8k : 248-8k]`. -/
def toBytes (w : Word) : List Byte :=
  (List.range wordBytes).map fun k => w.extractLsb' (248 - 8 * k) 8

/-- R85: `add`, the exact sum modulo `2^256`. -/
def wordAdd (a b : Word) : Word := wordOf (a.toNat + b.toNat)

/-- R86: `subtract`, `a - b` modulo `2^256`. -/
def wordSubtract (a b : Word) : Word := wordOf (2 ^ 256 + a.toNat - b.toNat)

/-- R87: `multiply`, the exact product modulo `2^256`. -/
def wordMultiply (a b : Word) : Word := wordOf (a.toNat * b.toNat)

/-- R88: `divide`, the floor quotient; for the divisor Zero the parameter `DIV_BY_ZERO_RESULT`. -/
def wordDivide (c : Config) (a b : Word) : Word :=
  if wordIsZero b then c.divByZeroResult else wordOf (a.toNat / b.toNat)

/-- R92: the outputs of the ALU port. -/
structure AluOut where
  /-- The 256-bit output. -/
  r : Word
  /-- The one-bit output. -/
  t : Bool
  deriving DecidableEq, Repr

/-- R92: the ALU port.  Codes 6 and 7 are refused; the output an operation leaves unspecified is a
free value of the inputs (U8). -/
def aluPort (c : Config) (op : BitVec 3) (a b : Word) : Option AluOut :=
  match op.toNat with
  | 0 => some ⟨wordAdd a b, Config.freeAluBit op a b⟩
  | 1 => some ⟨wordSubtract a b, Config.freeAluBit op a b⟩
  | 2 => some ⟨wordMultiply a b, Config.freeAluBit op a b⟩
  | 3 => some ⟨wordDivide c a b, Config.freeAluBit op a b⟩
  | 4 => some ⟨Config.freeAluWord op a b, wordEquals a b⟩
  | 5 => some ⟨Config.freeAluWord op a b, wordIsZero a⟩
  | _ => none

end Sys2Proof.Machine
end

