-- ==== Sys2Proof/Machine/IsZero.lean ====
section
/-! DEFINITION. The instruction IsZero (R230). -/

namespace Sys2Proof.Machine

/-- R230: the Word IsZero leaves, `One` for Zero and `Zero` for anything else. -/
def isZeroResult (a : Word) : Word := if wordIsZero a then wordOne else wordZero

/-- R230: pop one Word and leave its test in its place.  The push after the pop cannot overflow, so
the capacity is not tested. -/
def replaceTopByIsZero (S : List Word) : Except Fault (List Word) :=
  match stackPop S with
  | .error k => .error k
  | .ok (a, rest) => .ok (isZeroResult a :: rest)

/-- R230: `ExecIsZero()`. -/
def execIsZero (s : State) : Host.Outcome State Fault Refusal :=
  finish 1 (replaceTopByIsZero s.stack) s

end Sys2Proof.Machine
end

