-- ==== Sys2Proof/Machine/Push.lean ====
section
/-! DEFINITION. The Push family (R150 to R182). -/

namespace Sys2Proof.Machine

/-- R150: `ExecPush(N)`.  The truncation test comes before the capacity test (R250). -/
def pushN (c : Config) (n : Nat) (imm : List Byte) (s : State) :
    Host.Outcome State Fault Refusal :=
  match pushOperand n imm with
  | none => finish (1 + n) (.error .truncatedOperand) s
  | some bytes => finish (1 + n) (stackPush c.stackCapacity (fromBytes bytes) s.stack) s

/-- R151: `Push1`. -/
def execPush1 (imm : List Byte) (s : State) : Host.Outcome State Fault Refusal :=
  pushN Config.build 1 imm s

/-- R152: `Push2`. -/
def execPush2 (imm : List Byte) (s : State) : Host.Outcome State Fault Refusal :=
  pushN Config.build 2 imm s

/-- R153: `Push3`. -/
def execPush3 (imm : List Byte) (s : State) : Host.Outcome State Fault Refusal :=
  pushN Config.build 3 imm s

/-- R154: `Push4`. -/
def execPush4 (imm : List Byte) (s : State) : Host.Outcome State Fault Refusal :=
  pushN Config.build 4 imm s

/-- R155: `Push5`. -/
def execPush5 (imm : List Byte) (s : State) : Host.Outcome State Fault Refusal :=
  pushN Config.build 5 imm s

/-- R156: `Push6`. -/
def execPush6 (imm : List Byte) (s : State) : Host.Outcome State Fault Refusal :=
  pushN Config.build 6 imm s

/-- R157: `Push7`. -/
def execPush7 (imm : List Byte) (s : State) : Host.Outcome State Fault Refusal :=
  pushN Config.build 7 imm s

/-- R158: `Push8`. -/
def execPush8 (imm : List Byte) (s : State) : Host.Outcome State Fault Refusal :=
  pushN Config.build 8 imm s

/-- R159: `Push9`. -/
def execPush9 (imm : List Byte) (s : State) : Host.Outcome State Fault Refusal :=
  pushN Config.build 9 imm s

/-- R160: `Push10`. -/
def execPush10 (imm : List Byte) (s : State) : Host.Outcome State Fault Refusal :=
  pushN Config.build 10 imm s

/-- R161: `Push11`. -/
def execPush11 (imm : List Byte) (s : State) : Host.Outcome State Fault Refusal :=
  pushN Config.build 11 imm s

/-- R162: `Push12`. -/
def execPush12 (imm : List Byte) (s : State) : Host.Outcome State Fault Refusal :=
  pushN Config.build 12 imm s

/-- R163: `Push13`. -/
def execPush13 (imm : List Byte) (s : State) : Host.Outcome State Fault Refusal :=
  pushN Config.build 13 imm s

/-- R164: `Push14`. -/
def execPush14 (imm : List Byte) (s : State) : Host.Outcome State Fault Refusal :=
  pushN Config.build 14 imm s

/-- R165: `Push15`. -/
def execPush15 (imm : List Byte) (s : State) : Host.Outcome State Fault Refusal :=
  pushN Config.build 15 imm s

/-- R166: `Push16`. -/
def execPush16 (imm : List Byte) (s : State) : Host.Outcome State Fault Refusal :=
  pushN Config.build 16 imm s

/-- R167: `Push17`. -/
def execPush17 (imm : List Byte) (s : State) : Host.Outcome State Fault Refusal :=
  pushN Config.build 17 imm s

/-- R168: `Push18`. -/
def execPush18 (imm : List Byte) (s : State) : Host.Outcome State Fault Refusal :=
  pushN Config.build 18 imm s

/-- R169: `Push19`. -/
def execPush19 (imm : List Byte) (s : State) : Host.Outcome State Fault Refusal :=
  pushN Config.build 19 imm s

/-- R170: `Push20`. -/
def execPush20 (imm : List Byte) (s : State) : Host.Outcome State Fault Refusal :=
  pushN Config.build 20 imm s

/-- R171: `Push21`. -/
def execPush21 (imm : List Byte) (s : State) : Host.Outcome State Fault Refusal :=
  pushN Config.build 21 imm s

/-- R172: `Push22`. -/
def execPush22 (imm : List Byte) (s : State) : Host.Outcome State Fault Refusal :=
  pushN Config.build 22 imm s

/-- R173: `Push23`. -/
def execPush23 (imm : List Byte) (s : State) : Host.Outcome State Fault Refusal :=
  pushN Config.build 23 imm s

/-- R174: `Push24`. -/
def execPush24 (imm : List Byte) (s : State) : Host.Outcome State Fault Refusal :=
  pushN Config.build 24 imm s

/-- R175: `Push25`. -/
def execPush25 (imm : List Byte) (s : State) : Host.Outcome State Fault Refusal :=
  pushN Config.build 25 imm s

/-- R176: `Push26`. -/
def execPush26 (imm : List Byte) (s : State) : Host.Outcome State Fault Refusal :=
  pushN Config.build 26 imm s

/-- R177: `Push27`. -/
def execPush27 (imm : List Byte) (s : State) : Host.Outcome State Fault Refusal :=
  pushN Config.build 27 imm s

/-- R178: `Push28`. -/
def execPush28 (imm : List Byte) (s : State) : Host.Outcome State Fault Refusal :=
  pushN Config.build 28 imm s

/-- R179: `Push29`. -/
def execPush29 (imm : List Byte) (s : State) : Host.Outcome State Fault Refusal :=
  pushN Config.build 29 imm s

/-- R180: `Push30`. -/
def execPush30 (imm : List Byte) (s : State) : Host.Outcome State Fault Refusal :=
  pushN Config.build 30 imm s

/-- R181: `Push31`. -/
def execPush31 (imm : List Byte) (s : State) : Host.Outcome State Fault Refusal :=
  pushN Config.build 31 imm s

/-- R182: `Push32`. -/
def execPush32 (imm : List Byte) (s : State) : Host.Outcome State Fault Refusal :=
  pushN Config.build 32 imm s

end Sys2Proof.Machine
end

