-- ==== Sys2Proof/Machine/Swap.lean ====
section
/-! DEFINITION. The Swap family (R210 to R226). -/

namespace Sys2Proof.Machine

/-- R210: `ExecSwap(N)`, which calls `swap(N)`: the modifier is the zero-based depth. -/
def swapN (n : Nat) (s : State) : Host.Outcome State Fault Refusal :=
  finish 1 (stackSwap n s.stack) s

/-- R211: `Swap1`. -/
def execSwap1 (s : State) : Host.Outcome State Fault Refusal := swapN 1 s

/-- R212: `Swap2`. -/
def execSwap2 (s : State) : Host.Outcome State Fault Refusal := swapN 2 s

/-- R213: `Swap3`. -/
def execSwap3 (s : State) : Host.Outcome State Fault Refusal := swapN 3 s

/-- R214: `Swap4`. -/
def execSwap4 (s : State) : Host.Outcome State Fault Refusal := swapN 4 s

/-- R215: `Swap5`. -/
def execSwap5 (s : State) : Host.Outcome State Fault Refusal := swapN 5 s

/-- R216: `Swap6`. -/
def execSwap6 (s : State) : Host.Outcome State Fault Refusal := swapN 6 s

/-- R217: `Swap7`. -/
def execSwap7 (s : State) : Host.Outcome State Fault Refusal := swapN 7 s

/-- R218: `Swap8`. -/
def execSwap8 (s : State) : Host.Outcome State Fault Refusal := swapN 8 s

/-- R219: `Swap9`. -/
def execSwap9 (s : State) : Host.Outcome State Fault Refusal := swapN 9 s

/-- R220: `Swap10`. -/
def execSwap10 (s : State) : Host.Outcome State Fault Refusal := swapN 10 s

/-- R221: `Swap11`. -/
def execSwap11 (s : State) : Host.Outcome State Fault Refusal := swapN 11 s

/-- R222: `Swap12`. -/
def execSwap12 (s : State) : Host.Outcome State Fault Refusal := swapN 12 s

/-- R223: `Swap13`. -/
def execSwap13 (s : State) : Host.Outcome State Fault Refusal := swapN 13 s

/-- R224: `Swap14`. -/
def execSwap14 (s : State) : Host.Outcome State Fault Refusal := swapN 14 s

/-- R225: `Swap15`. -/
def execSwap15 (s : State) : Host.Outcome State Fault Refusal := swapN 15 s

/-- R226: `Swap16`. -/
def execSwap16 (s : State) : Host.Outcome State Fault Refusal := swapN 16 s

end Sys2Proof.Machine
end

