-- ==== Sys2Proof/Machine/Step.lean ====
section
/-! DEFINITION. One step of the sequencer (R122, R123), and how a program word is placed for it. -/

namespace Sys2Proof.Machine

/-- R123: one step of the modelled build (log entry 20), through `exec` and its 65 meanings. -/
def step (s : State) : Host.Outcome State Fault Refusal :=
  afterFetch exec (fetch s) s

/-- `s` with an opcode-table word stored in the bytecode buffer at `pc` and the fault latch clear, so
that the next step runs it.  It stands for the host's `LoadCode` (R126; log entry 9): bytes of the
buffer before `pc` and after the word stay. -/
def State.withFetchWord (s : State) (nbits w : Nat) : State :=
  { s with
    code :=
      (s.code ++ List.replicate (s.pc - s.code.length) 0).take s.pc ++ tableBytes nbits w ++
        s.code.drop (s.pc + maxInstrBytes)
    fault := none }

end Sys2Proof.Machine
end

