-- ==== Sys2Proof/Machine/Assembler.lean ====
section
/-! DEFINITION. The assembler's byte-layout contract (R61 to R68): the toolchain side of the encoding.
It is software and no part of the machine's state; its buffer is a list of bytes, initially empty. -/

namespace Sys2Proof.Machine

/-- R62: an operand of `compile`, one literal byte or a byte array. -/
inductive AsmOperand where
  | literal (v : Int)
  | bytes (bs : List Byte)
  deriving DecidableEq, Repr

/-- R62: the bytes of an operand, a literal's one byte or the array in its own order. -/
def asmOperandLayout (o : AsmOperand) : List Byte :=
  match o with
  | .literal v => [BitVec.ofNat 8 v.toNat]
  | .bytes bs => bs

/-- The bytes an operand appends; a literal outside 0..255 is refused (R66). -/
def asmOperandBytes (o : AsmOperand) : Option (List Byte) :=
  match o with
  | .literal v => if 0 ≤ v ∧ v ≤ 255 then some (asmOperandLayout o) else none
  | .bytes _ => some (asmOperandLayout o)

/-- The bytes a sequence of operands appends, in the order given (R62). -/
def asmOperandsBytes (operands : List AsmOperand) : Option (List Byte) :=
  match operands with
  | [] => some []
  | o :: rest =>
    match asmOperandBytes o, asmOperandsBytes rest with
    | some bs, some more => some (bs ++ more)
    | _, _ => none

/-- The empty buffer an assembler starts with (R61). -/
def asmEmpty : List Byte := []

/-- R62: `compile(opcode, operands...)` appends the opcode's byte and the operands.  Nothing about
the program is checked (R65); `none` when an operand is refused (R66). -/
def asmCompile (opcode : Byte) (operands : List AsmOperand) (buffer : List Byte) :
    Option (List Byte) :=
  match asmOperandsBytes operands with
  | some bs => some (buffer ++ opcode :: bs)
  | none => none

/-- R63: `compileAdjust(baseOpcode, n, operands...)` with the zero-based offset `n`.  A sum outside
0..255 is refused (R66); one that leaves the family is not checked. -/
def asmCompileAdjust (base : Byte) (n : Int) (operands : List AsmOperand) (buffer : List Byte) :
    Option (List Byte) :=
  if 0 ≤ (base.toNat : Int) + n ∧ (base.toNat : Int) + n ≤ 255 then
    asmCompile (BitVec.ofNat 8 ((base.toNat : Int) + n).toNat) operands buffer
  else none

/-- R64: `toBytes()`, the bytes appended so far. -/
def asmToBytes (buffer : List Byte) : List Byte := buffer

/-- One hexadecimal digit, lower case. -/
def hexDigit (n : Nat) : Char := if n < 10 then Char.ofNat (48 + n) else Char.ofNat (87 + n)

/-- A byte as a two-digit hexadecimal number (R67). -/
def hexByte (b : Byte) : String := String.ofList [hexDigit (b.toNat / 16), hexDigit (b.toNat % 16)]

/-- The mnemonic as the source spells it (R67). -/
def mnemonicOf (f : Form) : String :=
  match f with
  | .push n _ => "Push" ++ toString n
  | .dup n => "Dup" ++ toString n
  | .swap n => "Swap" ++ toString n
  | .isZero => "IsZero"

/-- R67: one listing line, the mnemonic and then the operand bytes, most significant first, separated
by spaces.  It is this spec's notation (D19) and there is no text syntax to parse (N3). -/
def listingLine (i : Instr) : String :=
  " ".intercalate (mnemonicOf i.form :: (operandsOf i.form).map hexByte)

end Sys2Proof.Machine
end

