-- ==== Sys2Proof/Machine/Build.lean ====
section
/-! DEFINITION. The machine of any build: its instructions and its step, with every parameter of R4 an
argument (D1, D2: a parameter that the spec leaves OPEN is one the model takes as an argument). -/

namespace Sys2Proof.Machine

/-- R123: the dispatch to the four routines of R150, R190, R210 and R230, on the build `c`. -/
def execWith (c : Config) (i : Instr) (s : State) : Host.Outcome State Fault Refusal :=
  match i.form with
  | .push n imm => pushN c n imm s
  | .dup n => dupN c n s
  | .swap n => swapN n s
  | .isZero => execIsZero s

/-- R123: one step of the build `c`, by its opcode map and its stack capacity. -/
def stepWith (c : Config) (s : State) : Host.Outcome State Fault Refusal :=
  afterFetch (execWith c) (fetchWith c s) s

end Sys2Proof.Machine
end

