-- ==== Sys2Proof/Machine/HostPort.lean ====
section
/-! DEFINITION. The host's transactions (R125 to R133) and the ALU port as the host reaches it (R92).
Each is atomic and happens between steps; a refused one changes no state (R137).  Every transaction is
one of a build `c`, which gives all of its parameters: the opcode map, the capacity, the longest
buffer and the divide-by-zero result. -/

namespace Sys2Proof.Machine

/-- The transactions of 42_sequencer.md section 4, and a use of the ALU port. -/
inductive HostCommand where
  /-- R125. -/
  | reset
  /-- R126. -/
  | loadCode (bytes : List Byte)
  /-- R127. -/
  | step
  /-- R128. -/
  | execute (bytes : List Byte)
  /-- R130. -/
  | readSize
  /-- R130. -/
  | readTop
  /-- R131. -/
  | readElementAt (i : Nat)
  /-- R132. -/
  | pop
  /-- R133. -/
  | readStatus
  /-- R133. -/
  | readFault
  /-- R133. -/
  | readPc
  /-- R133. -/
  | readLen
  /-- R19: a read of the register of that number. -/
  | readRegister (number : Nat)
  /-- R92: a use of the ALU port. -/
  | alu (op : BitVec 3) (a b : Word)
  deriving DecidableEq, Repr

/-- What the hardware answers to a transaction. -/
inductive HostResponse where
  /-- Performed, with nothing to return. -/
  | ok
  /-- `Refused`: no state has changed. -/
  | refused
  /-- The error response of the stack port (R260); no fault of the machine. -/
  | error (k : Fault)
  /-- A Word read or popped. -/
  | word (w : Word)
  /-- A number read. -/
  | number (n : Nat)
  /-- The status read. -/
  | status (v : Status)
  /-- The fault latch read. -/
  | latch (k : Option Fault)
  /-- The end of an `Execute`: the fault kind, if the run ended in one (R128). -/
  | finished (k : Option Fault)
  /-- The outputs of the ALU port. -/
  | alu (out : AluOut)
  deriving DecidableEq, Repr

/-- Whether a buffer fits the build's `CODE_MAX_LEN` (D3, U12). -/
def fitsCode (c : Config) (bytes : List Byte) : Bool :=
  match c.codeMaxLen with
  | none => true
  | some n => decide (bytes.length ≤ n)

/-- R126: `LoadCode` is accepted in Halted only, and only for a buffer the build can hold. -/
def loadAccepted (c : Config) (bytes : List Byte) (s : State) : Bool :=
  decide (status s = .halted) && fitsCode c bytes

/-- R126: the effect of an accepted `LoadCode`.  The stack is not emptied (D7). -/
def loadCode (bytes : List Byte) (s : State) : State := { s with code := bytes, pc := 0 }

/-- `Step` of the build `c` repeated while the machine runs, at most the given number of times. -/
def runSteps (c : Config) (limit : Nat) (s : State) : State :=
  match limit with
  | 0 => s
  | n + 1 =>
    match stepWith c s with
    | .next t => runSteps c n t
    | .fault _ => s
    | .refused _ => s

/-- R128: load the buffer and step while Running.  A run of `len` bytes takes at most `len` steps
(R129), so that many are enough. -/
def executeCode (c : Config) (bytes : List Byte) (s : State) : State :=
  runSteps c bytes.length (loadCode bytes s)

/-- The response of the stack port to a read (R260). -/
def wordResponse (r : Except Fault Word) : HostResponse :=
  match r with
  | .ok w => .word w
  | .error k => .error k

/-- R132: `Pop`, accepted in Halted only. -/
def hostPop (s : State) : State × HostResponse :=
  match status s, stackPop s.stack with
  | .halted, .ok (w, rest) => ({ s with stack := rest }, .word w)
  | .halted, .error k => (s, .error k)
  | .running, _ => (s, .refused)
  | .faulted, _ => (s, .refused)

/-- R127: `Step` of the build `c`. -/
def hostStep (c : Config) (s : State) : State × HostResponse :=
  match stepWith c s with
  | .next t => (t, .ok)
  | .fault _ => (s, .refused)
  | .refused _ => (s, .refused)

/-- One transaction of the build `c`: the state after it and the response (R125 to R133).  `Step` and
`Execute` run under `c`'s opcode map and capacity, `LoadCode` and `Execute` accept what `c` can hold,
and the ALU port divides as `c` says (log entry 20). -/
def transactWith (c : Config) (cmd : HostCommand) (s : State) : State × HostResponse :=
  match cmd with
  | .reset => (State.reset, .ok)
  | .loadCode bytes => if loadAccepted c bytes s then (loadCode bytes s, .ok) else (s, .refused)
  | .step => hostStep c s
  | .execute bytes =>
    if loadAccepted c bytes s then
      (executeCode c bytes s, .finished (executeCode c bytes s).fault)
    else (s, .refused)
  | .readSize => (s, .number (stackSize s.stack))
  | .readTop => (s, wordResponse (stackTop s.stack))
  | .readElementAt i => (s, wordResponse (stackElementAt i s.stack))
  | .pop => hostPop s
  | .readStatus => (s, .status (status s))
  | .readFault => (s, .latch s.fault)
  | .readPc => (s, .number s.pc)
  | .readLen => (s, .number s.len)
  | .readRegister number =>
    match readRegister s number with
    | some v => (s, .number v)
    | none => (s, .refused)
  | .alu op a b =>
    match aluPort c op a b with
    | some out => (s, .alu out)
    | none => (s, .refused)

/-- One transaction of the modelled build (log entry 20). -/
def transact (cmd : HostCommand) (s : State) : State × HostResponse :=
  transactWith Config.build cmd s

end Sys2Proof.Machine
end

