-- ==== Sys2Proof/Safety.lean ====
section
/-! DEFINITION. What counts as a well-kept state and a good run: the invariants of R23, the cause of a
latched fault (the table of R240), the end of a run (R136) and the states the host can reach. -/

namespace Sys2Proof.Machine

/-- What every reachable state of the build `c` satisfies: R23 (a) and (b) (R23 (c) holds by the type of
a Word), the range of `len` in R10, and R136's reading of `pc` in Faulted, the offset of an opcode
byte that exists. -/
structure StateInvOf (c : Config) (s : State) : Prop where
  /-- R16: `pc` never passes the end of the buffer. -/
  pc_le : s.pc ≤ s.len
  /-- R12: `size` never exceeds the capacity. -/
  size_le : s.size ≤ c.stackCapacity
  /-- R10: `len` never exceeds `CODE_MAX_LEN`, where the build has one. -/
  len_fits : ∀ m, c.codeMaxLen = some m → s.len ≤ m
  /-- R136: a latched fault leaves `pc` at the opcode byte of the instruction that faulted. -/
  fault_pc : s.fault ≠ none → s.pc < s.len

/-- The invariant of the modelled build. -/
abbrev StateInv (s : State) : Prop := StateInvOf Config.build s

/-- The condition under which the step of the build `c` at `s` raises the fault `k`: the rows of the
table of R240, with R250's order between the two conditions of a Push and of a Dup. -/
def FaultCause (c : Config) (s : State) (k : Fault) : Prop :=
  ∃ b, readByte s s.pc = some b ∧
    match k with
    | .stackUnderflow => decodeByte c b = .isZero ∧ s.size = 0
    | .stackOverflow =>
      s.size = c.stackCapacity ∧
        ((∃ n, decodeByte c b = .push n ∧ n ≤ s.len - s.pc - 1) ∨
          (∃ n, decodeByte c b = .dup n ∧ n ≤ s.size))
    | .indexOutOfRange =>
      (∃ n, decodeByte c b = .dup n ∧ s.size < n) ∨
        (∃ n, decodeByte c b = .swap n ∧ s.size < n + 1)
    | .truncatedOperand =>
      ∃ n, decodeByte c b = .push n ∧ s.len - s.pc - 1 < n
    | .invalidOpcode => decodeByte c b = .invalid

/-- A latched fault has its cause in the state (R248): what the host recovers from `pc`, `code` and
`S`. -/
def LatchCaused (c : Config) (s : State) : Prop := ∀ k, s.fault = some k → FaultCause c s k

/-- R136: the run has ended well.  A claim of success asks for this, never for Faulted (D4). -/
def Succeeded (s : State) : Prop := status s = .halted

/-- R136: the run has ended in the fault `k`. -/
def FailedWith (s : State) (k : Fault) : Prop := s.fault = some k

/-- The states the host can bring the machine of the build `c` into, from reset by the transactions of
R125 to R133. -/
inductive Reachable (c : Config) : State → Prop where
  | reset : Reachable c State.reset
  | transact {s : State} (cmd : HostCommand) :
    Reachable c s → Reachable c (transactWith c cmd s).1

end Sys2Proof.Machine
end

