-- ==== Sys2Proof/Certificates/Slice0/Obligations.lean ====
section
/-! DEFINITION. The statements for the provers. -/

open Sys2Proof Sys2Proof.Machine

/-- R55 with R53 and R52, over every opcode map that satisfies R60: decoding the encoding of a
well-formed instruction gives it back, with every operand byte, and leaves the bytes after it. -/
def Obligations.DecodeReturnsEncodedInstruction : Prop :=
  ∀ (c : Config) (i : Instr) (following : List Byte), c.Valid → i.WellFormed →
    decodeWith c (encodeWith c i ++ following) = .ok (i, following)

/-- The other direction: what the decoder reads is what the encoder writes, and it is well formed, or a
`PushN` with fewer than N operand bytes, read where the bytes end inside its operand (R243; log
entry 14). -/
def Obligations.EncodeRebuildsDecodedBytes : Prop :=
  ∀ (c : Config) (bytes following : List Byte) (i : Instr), c.Valid →
    decodeWith c bytes = .ok (i, following) →
      encodeWith c i ++ following = bytes ∧
        (i.WellFormed ∨
          (following = [] ∧ ∃ n imm, i.form = .push n imm ∧ imm.length < n))

/-- A few words written out from the default map of R54 (log entry 2) decode to the instruction they stand for. -/
def Obligations.WrittenWordsDecode : Prop :=
  decode [0x15] = .ok (.isZero, []) ∧
  decode [0x60, 0x2a] = .ok (.push1 [0x2a], []) ∧
  decode [0x61, 0x01, 0x02, 0x15] = .ok (.push2 [0x01, 0x02], [0x15]) ∧
  decode [0x80] = .ok (.dup1, []) ∧ decode [0x8f] = .ok (.dup16, []) ∧
  decode [0x90] = .ok (.swap1, []) ∧ decode [0x9f] = .ok (.swap16, []) ∧
  decode [0x5f] = .error (.invalidOpcode 0x5f) ∧ decode [0xa0] = .error (.invalidOpcode 0xa0)

/-- R53: the opcode byte of a family member is `base_opcode + (N - 1)`, N in the family's range.  And
`decode(opcode(I)) = I` of R55, which the spec derives from R53 and R60: that byte is decoded as the
same family and modifier. -/
def Obligations.OpcodeIsBasePlusOffset : Prop :=
  ∀ (c : Config) (i : Instr), c.Valid →
    match i.form with
    | .push n _ =>
      1 ≤ n ∧ n ≤ 32 ∧ (opcodeOf c i.form).toNat = c.opPush1.toNat + (n - 1) ∧
        decodeByte c (opcodeOf c i.form) = .push n
    | .dup n =>
      1 ≤ n ∧ n ≤ 16 ∧ (opcodeOf c i.form).toNat = c.opDup1.toNat + (n - 1) ∧
        decodeByte c (opcodeOf c i.form) = .dup n
    | .swap n =>
      1 ≤ n ∧ n ≤ 16 ∧ (opcodeOf c i.form).toNat = c.opSwap1.toNat + (n - 1) ∧
        decodeByte c (opcodeOf c i.form) = .swap n
    | .isZero =>
      opcodeOf c i.form = c.opIsZero ∧ decodeByte c (opcodeOf c i.form) = .isZero

/-- R55: decode as range membership, each answer exactly on its range, for every map that satisfies
R60 (so the order of the tests does not matter). -/
def Obligations.DecodeByteByRange : Prop :=
  ∀ (c : Config) (b : Byte), c.Valid →
    (∀ n, decodeByte c b = .push n ↔
      1 ≤ n ∧ n ≤ 32 ∧ b.toNat = c.opPush1.toNat + (n - 1)) ∧
    (∀ n, decodeByte c b = .dup n ↔ 1 ≤ n ∧ n ≤ 16 ∧ b.toNat = c.opDup1.toNat + (n - 1)) ∧
    (∀ n, decodeByte c b = .swap n ↔ 1 ≤ n ∧ n ≤ 16 ∧ b.toNat = c.opSwap1.toNat + (n - 1)) ∧
    (decodeByte c b = .isZero ↔ b = c.opIsZero) ∧
    (decodeByte c b = .invalid ↔
      ¬ (c.opPush1.toNat ≤ b.toNat ∧ b.toNat ≤ c.opPush1.toNat + 31) ∧
      ¬ (c.opDup1.toNat ≤ b.toNat ∧ b.toNat ≤ c.opDup1.toNat + 15) ∧
      ¬ (c.opSwap1.toNat ≤ b.toNat ∧ b.toNat ≤ c.opSwap1.toNat + 15) ∧ b ≠ c.opIsZero)

/-- R58 under the default opcode map of R54 (log entry 2): the invalid bytes are the 191 bytes
0x00..0x14, 0x16..0x5f and 0xa0..0xff. -/
def Obligations.DefaultInvalidBytes : Prop :=
  ∀ b : Byte, decodeByte Config.build b = .invalid ↔
    b.toNat ≤ 0x14 ∨ (0x16 ≤ b.toNat ∧ b.toNat ≤ 0x5f) ∨ 0xa0 ≤ b.toNat

/-- R244: on a Running machine the step raises `InvalidOpcode` exactly when the opcode byte is
Invalid, whatever the stack holds and whatever bytes follow. -/
def Obligations.InvalidOpcodeExactly : Prop :=
  ∀ (s : State) (b : Byte), status s = .running → readByte s s.pc = some b →
    (step s = .next (raiseFault .invalidOpcode s) ↔ decodeByte Config.build b = .invalid)

/-- R85 to R90: what the ALU port answers for each code, for every divide-by-zero result.  The code
numbers and the refusal of 6 and 7 are R92's, which calls them the spec's own; the output an operation
leaves unspecified is a free value of the model (log entry 5), and nothing is said of it here. -/
def Obligations.AluPortAnswers : Prop :=
  ∀ (c : Config) (a b : Word),
    (∃ out, aluPort c 0 a b = some out ∧ out.r.toNat = (a.toNat + b.toNat) % 2 ^ 256) ∧
    (∃ out, aluPort c 1 a b = some out ∧
      out.r.toNat = if b.toNat ≤ a.toNat then a.toNat - b.toNat
        else 2 ^ 256 + a.toNat - b.toNat) ∧
    (∃ out, aluPort c 2 a b = some out ∧ out.r.toNat = (a.toNat * b.toNat) % 2 ^ 256) ∧
    (∃ out, aluPort c 3 a b = some out ∧
      (b ≠ 0 → out.r.toNat = a.toNat / b.toNat) ∧ (b = 0 → out.r = c.divByZeroResult)) ∧
    (∃ out, aluPort c 4 a b = some out ∧ (out.t = true ↔ a.toNat = b.toNat)) ∧
    (∃ out, aluPort c 5 a b = some out ∧ (out.t = true ↔ a.toNat = 0)) ∧
    aluPort c 6 a b = none ∧ aluPort c 7 a b = none

/-- R93: the laws of the arithmetic unit. -/
def Obligations.WordArithmeticLaws : Prop :=
  ∀ (c : Config) (a b d : Word),
    wordAdd a b = wordAdd b a ∧ wordAdd (wordAdd a b) d = wordAdd a (wordAdd b d) ∧
    wordAdd a wordZero = a ∧
    wordSubtract a b = wordAdd a (wordSubtract wordZero b) ∧
    wordSubtract (wordAdd a b) b = a ∧ wordSubtract a a = wordZero ∧
    wordMultiply a b = wordMultiply b a ∧
    wordMultiply a (wordAdd b d) = wordAdd (wordMultiply a b) (wordMultiply a d) ∧
    wordMultiply a wordOne = a ∧
    (b ≠ wordZero →
      ∃! r : Word, r.toNat < b.toNat ∧ a = wordAdd (wordMultiply (wordDivide c a b) b) r) ∧
    (wordEquals a b = wordIsZero (wordSubtract a b))

/-- R83: `fromBytes` is the big-endian sum of R6 for 1 to 32 bytes, keeps the low-order 32 bytes of a
longer sequence, gives Zero for the empty one, and does not see leading zero bytes. -/
def Obligations.FromBytesIsBigEndian : Prop :=
  (∀ bytes : List Byte, bytes.length ≤ 32 →
    (fromBytes bytes).toNat =
      ∑ k : Fin bytes.length, bytes[k].toNat * 256 ^ (bytes.length - 1 - k.val)) ∧
  (∀ front bytes : List Byte, bytes.length = 32 → fromBytes (front ++ bytes) = fromBytes bytes) ∧
  fromBytes [] = wordZero ∧
  (∀ bytes : List Byte, fromBytes (0 :: bytes) = fromBytes bytes)

/-- R84: `toBytes` answers 32 bytes, `B[k] = w[255-8k : 248-8k]`, and `fromBytes` takes them back. -/
def Obligations.ToBytesIsCanonical : Prop :=
  ∀ w : Word, (toBytes w).length = 32 ∧
    (∀ k, k < 32 →
      ((toBytes w)[k]?.map fun b => b.toNat) = some (w.toNat / 2 ^ (248 - 8 * k) % 256)) ∧
    fromBytes (toBytes w) = w

/-- R82: `fromInt` reduces modulo `2^256` and refuses a negative integer. -/
def Obligations.FromIntReduces : Prop :=
  ∀ v : Int, (0 ≤ v → ∃ w, fromInt v = some w ∧ (w.toNat : Int) = v % 2 ^ 256) ∧
    (v < 0 → fromInt v = none)

/-- R101 to R107: what each operation of the stack engine answers, for every capacity. -/
def Obligations.StackEngineAnswers : Prop :=
  ∀ (cap i : Nat) (v : Word) (S : List Word),
    (stackPush cap v S = if S.length = cap then .error .stackOverflow else .ok (v :: S)) ∧
    (stackPop [] = .error .stackUnderflow ∧ stackPop (v :: S) = .ok (v, S)) ∧
    (stackTop [] = .error .stackUnderflow ∧ stackTop (v :: S) = .ok v) ∧
    (S.length ≤ i → stackElementAt i S = .error .indexOutOfRange) ∧
    (∀ w, S[i]? = some w → stackElementAt i S = .ok w) ∧
    (S.length ≤ i → stackDuplicate cap i S = .error .indexOutOfRange) ∧
    (∀ w, S[i]? = some w → stackDuplicate cap i S =
      if S.length = cap then .error .stackOverflow else .ok (w :: S)) ∧
    (S.length ≤ i → stackSwap i S = .error .indexOutOfRange) ∧
    (∀ a b, S[0]? = some a → S[i]? = some b → stackSwap i S = .ok ((S.set 0 b).set i a)) ∧
    stackSize S = S.length

/-- R111: which fault for which shortage, for every capacity. -/
def Obligations.StackShortageFaults : Prop :=
  ∀ (cap i : Nat) (v : Word) (S : List Word),
    (stackPop S = .error .stackUnderflow ↔ S.length = 0) ∧
    (stackTop S = .error .stackUnderflow ↔ S.length = 0) ∧
    (stackElementAt i S = .error .indexOutOfRange ↔ S.length ≤ i) ∧
    (stackDuplicate cap i S = .error .indexOutOfRange ↔ S.length ≤ i) ∧
    (stackSwap i S = .error .indexOutOfRange ↔ S.length ≤ i) ∧
    (stackPush cap v S = .error .stackOverflow ↔ S.length = cap) ∧
    (stackDuplicate cap i S = .error .stackOverflow ↔ i < S.length ∧ S.length = cap)

/-- R108: push and duplicate leave every old element one depth deeper, pop one depth shallower, and
swap changes depths 0 and i only. -/
def Obligations.StackOperationsKeepOrder : Prop :=
  ∀ (cap i : Nat) (v : Word) (S T : List Word),
    (stackPush cap v S = .ok T → T[0]? = some v ∧ ∀ j, T[j + 1]? = S[j]?) ∧
    (stackDuplicate cap i S = .ok T → T[0]? = S[i]? ∧ ∀ j, T[j + 1]? = S[j]?) ∧
    (stackPop S = .ok (v, T) → S[0]? = some v ∧ ∀ j, T[j]? = S[j + 1]?) ∧
    (stackSwap i S = .ok T →
      T.length = S.length ∧ T[0]? = S[i]? ∧ T[i]? = S[0]? ∧
        ∀ j, j ≠ 0 → j ≠ i → T[j]? = S[j]?)

/-- R210, its derived sentence: executing the same `SwapN` twice restores the stack. -/
def Obligations.SwapTwiceRestores : Prop :=
  ∀ (i : Instr) (n : Nat) (s : State), i.form = .swap n → n < s.size →
    ∃ t u, exec i s = .next t ∧ exec i t = .next u ∧ u = { s with pc := s.pc + 2 }

/-- The completion of `Push1` .. `Push32`: with all its operand bytes and room on the stack, a Push
answers the state with the Word of its operand on top and `pc` past the instruction. -/
def Obligations.PushCompletes : Prop :=
  ∀ (i : Instr) (n : Nat) (imm : List Byte) (s : State), i.form = .push n imm → i.WellFormed →
    s.size ≠ Config.build.stackCapacity →
      exec i s = .next { s with stack := fromBytes imm :: s.stack, pc := s.pc + 1 + n }

/-- The completion of `Dup1` .. `Dup16`: with at least N elements and room, a copy of the Word at
depth N - 1 is pushed. -/
def Obligations.DupCompletes : Prop :=
  ∀ (i : Instr) (n : Nat) (s : State), i.form = .dup n → n ≤ s.size →
    s.size ≠ Config.build.stackCapacity →
      ∃ v, s.stack[n - 1]? = some v ∧
        exec i s = .next { s with stack := v :: s.stack, pc := s.pc + 1 }

/-- The completion of `Swap1` .. `Swap16`: with at least N + 1 elements, depths 0 and N are
exchanged, every other depth and the size stay, and `pc` advances by 1. -/
def Obligations.SwapCompletes : Prop :=
  ∀ (i : Instr) (n : Nat) (s : State), i.form = .swap n → n < s.size →
    ∃ t, exec i s = .next t ∧ t.code = s.code ∧ t.fault = s.fault ∧ t.pc = s.pc + 1 ∧
      t.size = s.size ∧ t.stack[0]? = s.stack[n]? ∧ t.stack[n]? = s.stack[0]? ∧
      ∀ j, j ≠ 0 → j ≠ n → t.stack[j]? = s.stack[j]?

/-- The completion of `IsZero`, for every non-empty stack, a full one included. -/
def Obligations.IsZeroCompletes : Prop :=
  ∀ (a : Word) (rest : List Word) (s : State), s.stack = a :: rest →
    exec .isZero s =
      .next { s with stack := (if a.toNat = 0 then 1 else 0) :: rest, pc := s.pc + 1 }

/-- R123: a step runs the decoded instruction.  A Running machine whose bytes at `pc` decode to `i`
steps as `exec i`; a byte that does not decode is the fault `InvalidOpcode`. -/
def Obligations.StepRunsDecodedInstruction : Prop :=
  ∀ s : State, s.fault = none → s.pc < s.len →
    (∀ i following, decode (fetchBytes s) = .ok (i, following) → step s = exec i s) ∧
    (∀ e, decode (fetchBytes s) = .error e → step s = .next (raiseFault .invalidOpcode s))

/-- R122: there is a step exactly when `fault = None` and `pc < len`; it then reads an opcode byte
inside the buffer, and otherwise a `Step` transaction changes nothing. -/
def Obligations.StepOnlyWhenRunning : Prop :=
  ∀ s : State, (step s = .refused .notRunning ↔ ¬ (s.fault = none ∧ s.pc < s.len)) ∧
    ((s.fault = none ∧ s.pc < s.len) →
      (∃ b, readByte s s.pc = some b) ∧ ∃ t, step s = .next t) ∧
    (¬ (s.fault = none ∧ s.pc < s.len) → (transact .step s).1 = s)

/-- R150: the step at a `PushN` opcode byte, with its two faults in their order. -/
def Obligations.PushStepFollowsRule : Prop :=
  ∀ (s : State) (n : Nat) (b : Byte), status s = .running → 1 ≤ n → n ≤ 32 →
    readByte s s.pc = some b → b.toNat = Config.build.opPush1.toNat + (n - 1) →
      (s.len - (s.pc + 1) < n → step s = .next (raiseFault .truncatedOperand s)) ∧
      (n ≤ s.len - (s.pc + 1) → s.size = Config.build.stackCapacity →
        step s = .next (raiseFault .stackOverflow s)) ∧
      (n ≤ s.len - (s.pc + 1) → s.size ≠ Config.build.stackCapacity →
        ∃ bytes v, memRead s (s.pc + 1) n = some bytes ∧ v.toNat = be bytes ∧
          v.toNat < 2 ^ (8 * n) ∧
          step s = .next { s with stack := v :: s.stack, pc := s.pc + 1 + n } ∧
          (s.pc + 1 + n = s.len →
            status { s with stack := v :: s.stack, pc := s.pc + 1 + n } = .halted))

/-- R190: the step at a `DupN` opcode byte. -/
def Obligations.DupStepFollowsRule : Prop :=
  ∀ (s : State) (n : Nat) (b : Byte), status s = .running → 1 ≤ n → n ≤ 16 →
    readByte s s.pc = some b → b.toNat = Config.build.opDup1.toNat + (n - 1) →
      (s.size < n → step s = .next (raiseFault .indexOutOfRange s)) ∧
      (n ≤ s.size → s.size = Config.build.stackCapacity →
        step s = .next (raiseFault .stackOverflow s)) ∧
      (n ≤ s.size → s.size ≠ Config.build.stackCapacity →
        ∃ v t, s.stack[n - 1]? = some v ∧ t = { s with stack := v :: s.stack, pc := s.pc + 1 } ∧
          step s = .next t ∧ t.stack[n]? = some v)

/-- R210: the step at a `SwapN` opcode byte; it never raises `StackOverflow`, and two equal elements
leave the stack unchanged. -/
def Obligations.SwapStepFollowsRule : Prop :=
  ∀ (s : State) (n : Nat) (b : Byte), status s = .running → 1 ≤ n → n ≤ 16 →
    readByte s s.pc = some b → b.toNat = Config.build.opSwap1.toNat + (n - 1) →
      (s.size ≤ n → step s = .next (raiseFault .indexOutOfRange s)) ∧
      (∀ x y, s.stack[0]? = some x → s.stack[n]? = some y →
        step s = .next { s with stack := (s.stack.set 0 y).set n x, pc := s.pc + 1 } ∧
          (x = y → (s.stack.set 0 y).set n x = s.stack))

/-- R230: the step at the `IsZero` opcode byte. -/
def Obligations.IsZeroStepFollowsRule : Prop :=
  ∀ (s : State), status s = .running → readByte s s.pc = some Config.build.opIsZero →
    (s.size = 0 → step s = .next (raiseFault .stackUnderflow s)) ∧
    (∀ a rest, s.stack = a :: rest →
      step s = .next
        { s with stack := (if a = wordZero then wordOne else wordZero) :: rest, pc := s.pc + 1 })

/-- R240 and R250, whole table: a Running machine's step raises a fault exactly on that fault's
condition, on the modelled build and on every build. -/
def Obligations.StepFaultsExactlyOnCause : Prop :=
  (∀ (s : State) (k : Fault), status s = .running →
    (step s = .next (raiseFault k s) ↔ FaultCause Config.build s k)) ∧
  ∀ (c : Config) (s : State) (k : Fault), status s = .running →
    (stepWith c s = .next (raiseFault k s) ↔ FaultCause c s k)

/-- R245, R247, R248: a step that faults writes the latch and nothing else. -/
def Obligations.FaultWritesLatchOnly : Prop :=
  ∀ (s t : State) (k : Fault), step s = .next t → t.fault = some k →
    t = { s with fault := some k } ∧ status t = .faulted

/-- R243: `TruncatedOperand` exactly when a `PushN` has fewer than N bytes after its opcode byte,
the stack full or not. -/
def Obligations.TruncatedExactlyWhenShort : Prop :=
  ∀ (s : State) (n : Nat) (b : Byte), status s = .running → 1 ≤ n → n ≤ 32 →
    readByte s s.pc = some b → b.toNat = Config.build.opPush1.toNat + (n - 1) →
      (step s = .next (raiseFault .truncatedOperand s) ↔ s.len - (s.pc + 1) < n)

/-- R246: `IndexOutOfRange` is raised by `DupN` exactly when `size < N`, by `SwapN` exactly when
`size < N + 1`, and by no other instruction. -/
def Obligations.IndexOutOfRangeExactly : Prop :=
  ∀ (i : Instr) (s : State),
    exec i s = .next (raiseFault .indexOutOfRange s) ↔
      match i.form with
      | .push _ _ => False
      | .dup n => s.size < n
      | .swap n => s.size < n + 1
      | .isZero => False

/-- R242: on a full stack every Push that has its operand bytes and every Dup raises
`StackOverflow`; a stack that is not full never does; Swap and IsZero never do. -/
def Obligations.StackOverflowExactly : Prop :=
  ∀ (i : Instr) (s : State),
    exec i s = .next (raiseFault .stackOverflow s) ↔
      match i.form with
      | .push n imm => n ≤ imm.length ∧ s.size = Config.build.stackCapacity
      | .dup _ => s.size = Config.build.stackCapacity
      | .swap _ => False
      | .isZero => False

/-- R241: `StackUnderflow` is raised by `IsZero` exactly on an empty stack, and by no other
instruction. -/
def Obligations.StackUnderflowExactly : Prop :=
  ∀ (i : Instr) (s : State),
    exec i s = .next (raiseFault .stackUnderflow s) ↔ i = .isZero ∧ s.size = 0

/-- The frame of every instruction: the code space, byte by byte, and `len` never change; where the
instruction takes a fault nothing but the latch changes; where it completes the latch stays and the
only stack elements that change are those its rule names (R108). -/
def Obligations.InstructionFrame : Prop :=
  ∀ (i : Instr) (s t : State), exec i s = .next t →
    (∀ a, readByte t a = readByte s a) ∧ t.len = s.len ∧
    ((∃ k, t = { s with fault := some k }) ∨
      (t.fault = s.fault ∧
        match i.form with
        | .push _ _ => t.size = s.size + 1 ∧ ∀ j, t.stack[j + 1]? = s.stack[j]?
        | .dup _ => t.size = s.size + 1 ∧ ∀ j, t.stack[j + 1]? = s.stack[j]?
        | .swap n => t.size = s.size ∧ ∀ j, j ≠ 0 → j ≠ n → t.stack[j]? = s.stack[j]?
        | .isZero => t.size = s.size ∧ ∀ j, j ≠ 0 → t.stack[j]? = s.stack[j]?))

/-- No meaning ends in a fault or a refusal of `Outcome`: in every state and whatever its operands an
instruction answers a next state.  That a fault is such a next state, with the latch written, is the
model's choice of form (log entry 12; the run itself ends there, R245), as are a meaning's answers for
a term that is not well formed (log entry 8) and in a state that is not Running, which no step reaches
(log entry 13). -/
def Obligations.EveryInstructionAnswersNext : Prop :=
  ∀ (i : Instr) (s : State), ∃ t, exec i s = .next t ∧ t.code = s.code

/-- R123, "no instruction's behaviour depends on `pc`, on `len` (except the Push truncation test) or on
earlier instructions other than through `S`", for a decoded instruction: two states with the same
stack are changed by it in the same way.  A Push reads `code` and `len` on the hardware (R150); here it
is covered because the decoder has read them already, and the term carries the operand bytes and, by
holding fewer than N of them, the truncation (log entry 14). -/
def Obligations.EffectDependsOnStackOnly : Prop :=
  ∀ (i : Instr) (s t s' t' : State), s.stack = t.stack → s.fault = none → t.fault = none →
    exec i s = .next s' → exec i t = .next t' →
      s'.stack = t'.stack ∧ s'.fault = t'.fault ∧ s'.pc + t.pc = t'.pc + s.pc

/-- R15: `pc` starts at 0; a step that completes advances it by 1 + N at a `PushN` opcode byte and by
1 at any other, and a step that faults leaves it. -/
def Obligations.PcAdvancesByLength : Prop :=
  State.reset.pc = 0 ∧
  ∀ (s t : State), step s = .next t →
    ∃ b, readByte s s.pc = some b ∧
      (t.fault = none →
        (∃ n, decodeByte Config.build b = .push n ∧ t.pc = s.pc + (1 + n)) ∨
          ((∀ n, decodeByte Config.build b ≠ .push n) ∧ t.pc = s.pc + 1)) ∧
      (t.fault ≠ none → t.pc = s.pc)

/-- R23 (a), (b), R10 and R136: the invariant holds right after reset, for every build. -/
def Obligations.InvHoldsAtReset : Prop := ∀ c : Config, StateInvOf c State.reset

/-- R16, R12: every step keeps the invariant, on the modelled build and on every build: `pc` inside the
buffer or at its end, `size` within the capacity, `len` within `CODE_MAX_LEN`, and a latched fault at
an opcode byte. -/
def Obligations.StepKeepsInv : Prop :=
  (∀ s t : State, StateInv s → step s = .next t → StateInv t) ∧
  ∀ (c : Config) (s t : State), StateInvOf c s → stepWith c s = .next t → StateInvOf c t

/-- R23: on every build every host transaction keeps the invariant, so it holds in every reachable
state. -/
def Obligations.TransactionsKeepInv : Prop :=
  ∀ c : Config,
    (∀ (cmd : HostCommand) (s : State), StateInvOf c s → StateInvOf c (transactWith c cmd s).1) ∧
    ∀ s, Reachable c s → StateInvOf c s

/-- A latched fault has its cause in the state, so the host can recover it from `pc`, `code` and `S`
(R248, R240): this holds after reset, from every state where it holds every step and every transaction
keep it, and so it holds in every reachable state. -/
def Obligations.LatchedFaultHasCause : Prop :=
  (∀ s t : State, LatchCaused Config.build s → step s = .next t → LatchCaused Config.build t) ∧
  ∀ c : Config, LatchCaused c State.reset ∧
    (∀ s t : State, LatchCaused c s → stepWith c s = .next t → LatchCaused c t) ∧
    (∀ (cmd : HostCommand) (s : State), LatchCaused c s → LatchCaused c (transactWith c cmd s).1) ∧
    ∀ s, Reachable c s → LatchCaused c s

/-- R33: no transaction but Reset changes the code space except an accepted `LoadCode` or `Execute`,
which replaces the whole buffer and is accepted in Halted only; a step never changes it. -/
def Obligations.CodeWrittenOnlyByLoad : Prop :=
  (∀ s t : State, step s = .next t → t.code = s.code) ∧
  ∀ (c : Config) (cmd : HostCommand) (s : State), (transactWith c cmd s).1.code ≠ s.code →
    cmd = .reset ∨
      (status s = .halted ∧
        ∃ bytes, (cmd = .loadCode bytes ∨ cmd = .execute bytes) ∧
          (transactWith c cmd s).1.code = bytes)

/-- R13, R137: the stack is changed only by Reset, by a step of a Running machine, by an `Execute` of
a Halted one and by the host's `Pop` in Halted; loading code leaves it. -/
def Obligations.StackChangedOnlyBy : Prop :=
  ∀ (c : Config) (cmd : HostCommand) (s : State), (transactWith c cmd s).1.stack ≠ s.stack →
    cmd = .reset ∨ (cmd = .step ∧ status s = .running) ∨
      ((∃ bytes, cmd = .execute bytes) ∧ status s = .halted) ∨
      (cmd = .pop ∧ status s = .halted)

/-- R249: in Faulted every transaction but Reset leaves the state, `Step`, `LoadCode`, `Execute` and
`Pop` are refused, and the reads still answer. -/
def Obligations.FaultedUntilReset : Prop :=
  ∀ (c : Config) (s : State) (cmd : HostCommand), s.fault ≠ none →
    (cmd ≠ .reset → (transactWith c cmd s).1 = s) ∧
    (transactWith c .step s).2 = .refused ∧ (transactWith c .pop s).2 = .refused ∧
    (∀ bytes, (transactWith c (.loadCode bytes) s).2 = .refused ∧
      (transactWith c (.execute bytes) s).2 = .refused) ∧
    (transactWith c .readSize s).2 = .number s.size ∧
    (∀ v rest, s.stack = v :: rest → (transactWith c .readTop s).2 = .word v) ∧
    (∀ i v, s.stack[i]? = some v → (transactWith c (.readElementAt i) s).2 = .word v) ∧
    (transactWith c .readStatus s).2 = .status .faulted ∧
    (transactWith c .readFault s).2 = .latch s.fault ∧
    (transactWith c .readPc s).2 = .number s.pc ∧ (transactWith c .readLen s).2 = .number s.len ∧
    (transactWith c .reset s).1.fault = none ∧ (transactWith c .reset s).1.size = 0

/-- R270, R271: Reset is accepted in every state, gives the state of the table and is idempotent.  The
response `ok` is the model's name for "performed" (log entry 10). -/
def Obligations.ResetClearsEverything : Prop :=
  ∀ (c : Config) (s : State),
    (transactWith c .reset s).2 = .ok ∧ (transactWith c .reset s).1 = State.reset ∧
    (transactWith c .reset s).1.code = [] ∧ (transactWith c .reset s).1.len = 0 ∧
    (transactWith c .reset s).1.pc = 0 ∧ (transactWith c .reset s).1.stack = [] ∧
    (transactWith c .reset s).1.fault = none ∧ status (transactWith c .reset s).1 = .halted ∧
    (transactWith c .reset (transactWith c .reset s).1).1 = (transactWith c .reset s).1

/-- R126, U12: `LoadCode`, for every build: accepted in Halted for a buffer the build holds, with the
stack and the latch kept; refused otherwise with no change.  The response `ok` is the model's name for
"performed" (log entry 10). -/
def Obligations.LoadCodeRule : Prop :=
  ∀ (c : Config) (bytes : List Byte) (s : State),
    (status s = .halted → (∀ m, c.codeMaxLen = some m → bytes.length ≤ m) →
      transactWith c (.loadCode bytes) s = ({ s with code := bytes, pc := 0 }, .ok) ∧
      status { s with code := bytes, pc := 0 } =
        if bytes.length = 0 then .halted else .running) ∧
    ((status s ≠ .halted ∨ ∃ m, c.codeMaxLen = some m ∧ m < bytes.length) →
      transactWith c (.loadCode bytes) s = (s, .refused))

/-- R127: the `Step` transaction performs exactly one step when Running and is refused otherwise.  The
response `ok` is the model's name for "performed" (log entry 10).  On every build the step is that
build's. -/
def Obligations.StepTransactionRule : Prop :=
  ∀ s : State,
    (status s = .running → ∃ t, step s = .next t ∧ transact .step s = (t, .ok)) ∧
    (status s ≠ .running → transact .step s = (s, .refused)) ∧
    ∀ c : Config,
      (status s = .running → ∃ t, stepWith c s = .next t ∧ transactWith c .step s = (t, .ok)) ∧
      (status s ≠ .running → transactWith c .step s = (s, .refused))

/-- R128: on every build `Execute` is `LoadCode` followed by `Step` while Running, accepted as
`LoadCode` is.  That it ends, after at most `length(bytes)` steps, is R129, which the spec derives.  It
answers the latched fault under the model's name `finished` (log entry 10).  On the modelled build,
which has no `CODE_MAX_LEN`, a buffer of every length is accepted (log entry 3). -/
def Obligations.ExecuteRunsToTheEnd : Prop :=
  ∀ (c : Config) (bytes : List Byte) (s : State),
    ((status s ≠ .halted ∨ ∃ m, c.codeMaxLen = some m ∧ m < bytes.length) →
      transactWith c (.execute bytes) s = (s, .refused)) ∧
    (status s = .halted → (∀ m, c.codeMaxLen = some m → bytes.length ≤ m) →
      ∃ k, k ≤ bytes.length ∧
        (∀ j, j < k →
          status ((fun u => (transactWith c .step u).1)^[j]
            (transactWith c (.loadCode bytes) s).1) = .running) ∧
        (transactWith c (.execute bytes) s).1 =
          (fun u => (transactWith c .step u).1)^[k] (transactWith c (.loadCode bytes) s).1 ∧
        status (transactWith c (.execute bytes) s).1 ≠ .running ∧
        (transactWith c (.execute bytes) s).2 =
          .finished (transactWith c (.execute bytes) s).1.fault)

/-- R129: from any state a run takes at most `len - pc` further steps, on every build; a step that
completes increases `pc`, which stays at most `len`. -/
def Obligations.RunTakesAtMostRemainingBytes : Prop :=
  (∀ s t : State, step s = .next t → t.fault = none → s.pc < t.pc ∧ t.pc ≤ t.len) ∧
  ∀ c : Config,
    (∀ s t : State, stepWith c s = .next t → t.fault = none → s.pc < t.pc ∧ t.pc ≤ t.len) ∧
    ∀ s : State, ∃ k, k ≤ s.len - s.pc ∧
      status ((fun u => (transactWith c .step u).1)^[k] s) ≠ .running

/-- R130, R131, R260: the reads of the stack port, accepted in every state, with their error
responses; they change no state. -/
def Obligations.StackPortReads : Prop :=
  ∀ (c : Config) (s : State) (i : Nat),
    transactWith c .readSize s = (s, .number s.size) ∧
    (∀ v rest, s.stack = v :: rest → transactWith c .readTop s = (s, .word v)) ∧
    (s.size = 0 → transactWith c .readTop s = (s, .error .stackUnderflow)) ∧
    (∀ v, s.stack[i]? = some v → transactWith c (.readElementAt i) s = (s, .word v)) ∧
    (s.size ≤ i → transactWith c (.readElementAt i) s = (s, .error .indexOutOfRange))

/-- R132: the host's `Pop`, accepted in Halted only. -/
def Obligations.HostPopRule : Prop :=
  ∀ (c : Config) (s : State),
    (status s ≠ .halted → transactWith c .pop s = (s, .refused)) ∧
    (status s = .halted → s.size = 0 → transactWith c .pop s = (s, .error .stackUnderflow)) ∧
    (status s = .halted → ∀ v rest, s.stack = v :: rest →
      transactWith c .pop s = ({ s with stack := rest }, .word v))

/-- R14, R18, R19, R133: the status, its definition and the five registers with their codes.  The
register numbers and the codes are the spec's own (R18, R19: a suggested binding), and the read by
number is a transaction of the model (log entry 10). -/
def Obligations.HostRegistersRead : Prop :=
  ∀ (c : Config) (s : State),
    (status s = .faulted ↔ s.fault ≠ none) ∧
    (status s = .running ↔ s.fault = none ∧ s.pc < s.len) ∧
    (status s = .halted ↔ s.fault = none ∧ s.len ≤ s.pc) ∧
    transactWith c .readStatus s = (s, .status (status s)) ∧
    transactWith c .readFault s = (s, .latch s.fault) ∧
    transactWith c .readPc s = (s, .number s.pc) ∧ transactWith c .readLen s = (s, .number s.len) ∧
    (∃ v, transactWith c (.readRegister 0) s = (s, .number v) ∧ v ≤ 2 ∧
      (v = 0 ↔ status s = .halted) ∧ (v = 1 ↔ status s = .running)) ∧
    (∃ v, transactWith c (.readRegister 1) s = (s, .number v) ∧ v ≤ 5 ∧ (v = 0 ↔ s.fault = none) ∧
      (v = 1 ↔ s.fault = some .stackUnderflow) ∧ (v = 2 ↔ s.fault = some .stackOverflow) ∧
      (v = 3 ↔ s.fault = some .indexOutOfRange) ∧
      (v = 4 ↔ s.fault = some .truncatedOperand) ∧ (v = 5 ↔ s.fault = some .invalidOpcode)) ∧
    transactWith c (.readRegister 2) s = (s, .number s.pc) ∧
    transactWith c (.readRegister 3) s = (s, .number s.len) ∧
    transactWith c (.readRegister 4) s = (s, .number s.size)

/-- R92, R91: the ALU port may be used in any machine state and changes none of it. -/
def Obligations.AluPortChangesNothing : Prop :=
  ∀ (c : Config) (op : BitVec 3) (a b : Word) (s : State),
    (transactWith c (.alu op a b) s).1 = s ∧
      ((transactWith c (.alu op a b) s).2 = .refused ↔ 6 ≤ op.toNat)

/-- R63 with R53: `compileAdjust(base, N - 1, operand bytes)` appends exactly the encoding of the
family member, for every opcode map that satisfies R60. -/
def Obligations.CompileAdjustEmitsEncoding : Prop :=
  ∀ (c : Config) (i : Instr) (buffer : List Byte), c.Valid →
    match i.form with
    | .push n imm =>
      asmCompileAdjust c.opPush1 ((n : Int) - 1) [.bytes imm] buffer =
        some (buffer ++ encodeWith c i)
    | .dup n =>
      asmCompileAdjust c.opDup1 ((n : Int) - 1) [] buffer = some (buffer ++ encodeWith c i)
    | .swap n =>
      asmCompileAdjust c.opSwap1 ((n : Int) - 1) [] buffer = some (buffer ++ encodeWith c i)
    | .isZero => asmCompile c.opIsZero [] buffer = some (buffer ++ encodeWith c i)

/-- R62, R66: `compile` appends the opcode and the operands in the order given, or refuses when an
operand is a literal outside 0..255; `compileAdjust` refuses a sum outside 0..255.  The refusals are
R66's, the spec's decision D22, and that a refused call answers `none` is the model's form (log
entry 17). -/
def Obligations.CompileAppendsInOrder : Prop :=
  (∀ (op : Byte) (operands : List AsmOperand) (bytes buffer : List Byte),
    asmCompile op operands buffer = some bytes ↔
      (∀ v, AsmOperand.literal v ∈ operands → 0 ≤ v ∧ v ≤ 255) ∧
      bytes = buffer ++ op :: operands.flatMap asmOperandLayout) ∧
  (∀ (base : Byte) (n : Int) (operands : List AsmOperand) (buffer : List Byte),
    ((base.toNat : Int) + n < 0 ∨ 255 < (base.toNat : Int) + n) →
      asmCompileAdjust base n operands buffer = none)

/-- Log entry 9: a table word placed by `withFetchWord` is the next instruction a step runs, whatever
the state. -/
def Obligations.PlacedWordRunsNext : Prop :=
  ∀ (s : State) (nbits w : Nat) (i : Instr), decodeTableWord nbits w = some i →
    step (s.withFetchWord nbits w) = exec i (s.withFetchWord nbits w)

/-- Log entry 20: `exec`, `step` and `transact`, whose types name no build, are the machine of the
modelled build. -/
def Obligations.StepIsTheModelledBuildsStep : Prop :=
  ∀ (i : Instr) (cmd : HostCommand) (s : State),
    exec i s = execWith Config.build i s ∧ step s = stepWith Config.build s ∧
      transact cmd s = transactWith Config.build cmd s

/-- R121 to R123 on every build: with no fault and `pc` inside the buffer the step runs the instruction
that the build's own opcode map decodes, or takes the fault `InvalidOpcode`; otherwise there is no
step. -/
def Obligations.EveryBuildRunsDecodedInstruction : Prop :=
  ∀ (c : Config) (s : State),
    (s.fault = none → s.pc < s.len →
      (∀ i following, decodeWith c (fetchBytes s) = .ok (i, following) →
        stepWith c s = execWith c i s) ∧
      (∀ e, decodeWith c (fetchBytes s) = .error e →
        stepWith c s = .next (raiseFault .invalidOpcode s))) ∧
    (¬ (s.fault = none ∧ s.pc < s.len) → stepWith c s = .refused .notRunning)

/-- R123 with R150, R190, R210, R230 and R244 on every build: what the step does at each kind of opcode
byte, by the build's own opcode map (R54) and capacity (R12). -/
def Obligations.EveryBuildStepFollowsRules : Prop :=
  ∀ (c : Config) (s : State) (b : Byte), status s = .running → readByte s s.pc = some b →
    match decodeByte c b with
    | .push n =>
      (s.len - (s.pc + 1) < n → stepWith c s = .next (raiseFault .truncatedOperand s)) ∧
      (n ≤ s.len - (s.pc + 1) → s.size = c.stackCapacity →
        stepWith c s = .next (raiseFault .stackOverflow s)) ∧
      (n ≤ s.len - (s.pc + 1) → s.size ≠ c.stackCapacity →
        ∃ bytes, memRead s (s.pc + 1) n = some bytes ∧
          stepWith c s =
            .next { s with stack := fromBytes bytes :: s.stack, pc := s.pc + 1 + n })
    | .dup n =>
      (s.size < n → stepWith c s = .next (raiseFault .indexOutOfRange s)) ∧
      (n ≤ s.size → s.size = c.stackCapacity →
        stepWith c s = .next (raiseFault .stackOverflow s)) ∧
      (n ≤ s.size → s.size ≠ c.stackCapacity →
        ∃ v, s.stack[n - 1]? = some v ∧
          stepWith c s = .next { s with stack := v :: s.stack, pc := s.pc + 1 })
    | .swap n =>
      (s.size ≤ n → stepWith c s = .next (raiseFault .indexOutOfRange s)) ∧
      (∀ x y, s.stack[0]? = some x → s.stack[n]? = some y →
        stepWith c s = .next { s with stack := (s.stack.set 0 y).set n x, pc := s.pc + 1 })
    | .isZero =>
      (s.size = 0 → stepWith c s = .next (raiseFault .stackUnderflow s)) ∧
      (∀ a rest, s.stack = a :: rest →
        stepWith c s = .next
          { s with stack := (if a = wordZero then wordOne else wordZero) :: rest, pc := s.pc + 1 })
    | .invalid => stepWith c s = .next (raiseFault .invalidOpcode s)
end

