-- ==== Sys2Proof/Laws/Config.lean ====
section
/-! SUPPORT. The modelled build satisfies the constraints on its parameters. -/

namespace Sys2Proof.Laws

/-- R54: the default opcode bytes satisfy R60, and the default capacity satisfies R4. -/
theorem build_valid : Config.build.Valid := by decide

end Sys2Proof.Laws
end

