-- ==== Sys2Proof/Laws/Decode.lean ====
section
/-! SUPPORT. The constructor tables of the decoder are the inverse of `Instr.form`. -/

namespace Sys2Proof.Laws

theorem ofPush_eq_some_iff (n : Nat) (imm : List Byte) (i : Instr) :
    Instr.ofPush n imm = some i ↔ i.form = .push n imm := by
  constructor
  · intro h
    unfold Instr.ofPush at h
    split at h <;> first | (cases h; rfl) | cases h
  · intro h
    cases i <;> simp only [Instr.form, Form.push.injEq, reduceCtorEq] at h <;>
      (obtain ⟨rfl, rfl⟩ := h; rfl)

theorem ofDup_eq_some_iff (n : Nat) (i : Instr) :
    Instr.ofDup n = some i ↔ i.form = .dup n := by
  constructor
  · intro h
    unfold Instr.ofDup at h
    split at h <;> first | (cases h; rfl) | cases h
  · intro h
    cases i <;> simp only [Instr.form, Form.dup.injEq, reduceCtorEq] at h <;> (subst h; rfl)

theorem ofSwap_eq_some_iff (n : Nat) (i : Instr) :
    Instr.ofSwap n = some i ↔ i.form = .swap n := by
  constructor
  · intro h
    unfold Instr.ofSwap at h
    split at h <;> first | (cases h; rfl) | cases h
  · intro h
    cases i <;> simp only [Instr.form, Form.swap.injEq, reduceCtorEq] at h <;> (subst h; rfl)

/-- A modifier in 1..32 names a Push. -/
theorem ofPush_isSome_iff (n : Nat) (imm : List Byte) :
    (Instr.ofPush n imm).isSome = true ↔ 1 ≤ n ∧ n ≤ 32 := by
  constructor
  · intro h
    unfold Instr.ofPush at h
    split at h <;> first | omega | cases h
  · rintro ⟨h1, h2⟩
    interval_cases n <;> rfl

theorem ofDup_isSome_iff (n : Nat) : (Instr.ofDup n).isSome = true ↔ 1 ≤ n ∧ n ≤ 16 := by
  constructor
  · intro h
    unfold Instr.ofDup at h
    split at h <;> first | omega | cases h
  · rintro ⟨h1, h2⟩
    interval_cases n <;> rfl

theorem ofSwap_isSome_iff (n : Nat) : (Instr.ofSwap n).isSome = true ↔ 1 ≤ n ∧ n ≤ 16 := by
  constructor
  · intro h
    unfold Instr.ofSwap at h
    split at h <;> first | omega | cases h
  · rintro ⟨h1, h2⟩
    interval_cases n <;> rfl

end Sys2Proof.Laws
end

