-- ==== Sys2Proof/Laws/Stack.lean ====
section
/-! SUPPORT. What each operation of the stack engine can answer, said once. -/

namespace Sys2Proof.Machine

theorem stackPush_cases (cap : Nat) (v : Word) (S : List Word) :
    (S.length = cap ∧ stackPush cap v S = .error .stackOverflow) ∨
      (S.length ≠ cap ∧ stackPush cap v S = .ok (v :: S)) := by
  unfold stackPush
  split <;> simp_all

theorem stackPop_cases (S : List Word) :
    (S = [] ∧ stackPop S = .error .stackUnderflow) ∨
      (∃ v rest, S = v :: rest ∧ stackPop S = .ok (v, rest)) := by
  cases S <;> simp [stackPop]

theorem stackTop_cases (S : List Word) :
    (S = [] ∧ stackTop S = .error .stackUnderflow) ∨
      (∃ v rest, S = v :: rest ∧ stackTop S = .ok v) := by
  cases S <;> simp [stackTop]

theorem stackElementAt_cases (i : Nat) (S : List Word) :
    (S.length ≤ i ∧ stackElementAt i S = .error .indexOutOfRange) ∨
      (∃ v, S[i]? = some v ∧ stackElementAt i S = .ok v) := by
  unfold stackElementAt
  cases h : S[i]? with
  | none => exact .inl ⟨by simpa using h, rfl⟩
  | some v => exact .inr ⟨v, rfl, rfl⟩

theorem stackDuplicate_cases (cap i : Nat) (S : List Word) :
    (S.length ≤ i ∧ stackDuplicate cap i S = .error .indexOutOfRange) ∨
      (i < S.length ∧ S.length = cap ∧ stackDuplicate cap i S = .error .stackOverflow) ∨
      (∃ v, S[i]? = some v ∧ S.length ≠ cap ∧ stackDuplicate cap i S = .ok (v :: S)) := by
  unfold stackDuplicate
  obtain ⟨hi, he⟩ | ⟨v, hv, he⟩ := stackElementAt_cases i S
  · exact .inl ⟨hi, by rw [he]⟩
  · rw [he]
    obtain ⟨hc, hp⟩ | ⟨hc, hp⟩ := stackPush_cases cap v S
    · exact .inr (.inl ⟨(List.getElem?_eq_some_iff.mp hv).1, hc, hp⟩)
    · exact .inr (.inr ⟨v, hv, hc, hp⟩)

theorem stackSwap_cases (i : Nat) (S : List Word) :
    (S.length ≤ i ∧ stackSwap i S = .error .indexOutOfRange) ∨
      (∃ a b, S[0]? = some a ∧ S[i]? = some b ∧ stackSwap i S = .ok ((S.set 0 b).set i a)) := by
  unfold stackSwap
  cases h : S[i]? with
  | none =>
    refine .inl ⟨by simpa using h, ?_⟩
    cases S[0]? <;> rfl
  | some b =>
    have hi := (List.getElem?_eq_some_iff.mp h).1
    have h0 : S[0]? = some S[0] := List.getElem?_eq_getElem (by omega)
    exact .inr ⟨S[0], b, h0, rfl, by rw [h0]⟩

/-- R106: an exchange keeps the size. -/
theorem stackSwap_length {i : Nat} {S T : List Word} (h : stackSwap i S = .ok T) :
    T.length = S.length := by
  obtain ⟨_, he⟩ | ⟨a, b, _, _, he⟩ := stackSwap_cases i S
  · rw [he] at h; cases h
  · rw [he] at h; cases h; simp

theorem replaceTopByIsZero_cases (S : List Word) :
    (S = [] ∧ replaceTopByIsZero S = .error .stackUnderflow) ∨
      (∃ a rest, S = a :: rest ∧ replaceTopByIsZero S = .ok (isZeroResult a :: rest)) := by
  cases S <;> simp [replaceTopByIsZero, stackPop]

end Sys2Proof.Machine
end

