-- ==== Sys2Proof/Laws/State.lean ====
section
/-! SUPPORT. One lemma per field and state update, so that no later proof unfolds a record update. -/

namespace Sys2Proof.Machine

@[simp] theorem raiseFault_code (k : Fault) (s : State) : (raiseFault k s).code = s.code := rfl
@[simp] theorem raiseFault_pc (k : Fault) (s : State) : (raiseFault k s).pc = s.pc := rfl
@[simp] theorem raiseFault_stack (k : Fault) (s : State) : (raiseFault k s).stack = s.stack := rfl
@[simp] theorem raiseFault_fault (k : Fault) (s : State) : (raiseFault k s).fault = some k := rfl
@[simp] theorem raiseFault_len (k : Fault) (s : State) : (raiseFault k s).len = s.len := rfl
@[simp] theorem raiseFault_size (k : Fault) (s : State) : (raiseFault k s).size = s.size := rfl

@[simp] theorem complete_code (n : Nat) (S : List Word) (s : State) :
    (complete n S s).code = s.code := rfl
@[simp] theorem complete_pc (n : Nat) (S : List Word) (s : State) :
    (complete n S s).pc = s.pc + n := rfl
@[simp] theorem complete_stack (n : Nat) (S : List Word) (s : State) :
    (complete n S s).stack = S := rfl
@[simp] theorem complete_fault (n : Nat) (S : List Word) (s : State) :
    (complete n S s).fault = s.fault := rfl
@[simp] theorem complete_len (n : Nat) (S : List Word) (s : State) :
    (complete n S s).len = s.len := rfl
@[simp] theorem complete_size (n : Nat) (S : List Word) (s : State) :
    (complete n S s).size = S.length := rfl

@[simp] theorem loadCode_code (bs : List Byte) (s : State) : (loadCode bs s).code = bs := rfl
@[simp] theorem loadCode_pc (bs : List Byte) (s : State) : (loadCode bs s).pc = 0 := rfl
@[simp] theorem loadCode_stack (bs : List Byte) (s : State) : (loadCode bs s).stack = s.stack := rfl
@[simp] theorem loadCode_fault (bs : List Byte) (s : State) : (loadCode bs s).fault = s.fault := rfl
@[simp] theorem loadCode_len (bs : List Byte) (s : State) : (loadCode bs s).len = bs.length := rfl

@[simp] theorem withFetchWord_pc (s : State) (nbits w : Nat) :
    (s.withFetchWord nbits w).pc = s.pc := rfl
@[simp] theorem withFetchWord_stack (s : State) (nbits w : Nat) :
    (s.withFetchWord nbits w).stack = s.stack := rfl
@[simp] theorem withFetchWord_fault (s : State) (nbits w : Nat) :
    (s.withFetchWord nbits w).fault = none := rfl

end Sys2Proof.Machine
end

