-- ==== Sys2Proof/Laws/Exec.lean ====
section
/-! SUPPORT. The shared operations of a step: `finish`, the four families, `exec` and `step` as those
of the modelled build, and what a fetch and a step of any build can be.  Later proofs split on these
and never on the 65 constructors. -/

namespace Sys2Proof.Machine

/-- An instruction completes with the stack its operation answered, or takes the fault. -/
theorem finish_cases (n : Nat) (r : Except Fault (List Word)) (s : State) :
    (∃ S, r = .ok S ∧ finish n r s = .next (complete n S s)) ∨
      (∃ k, r = .error k ∧ finish n r s = .next (raiseFault k s)) := by
  cases r <;> simp [finish]

/-- R150: what a Push can do. -/
theorem pushN_cases (c : Config) (n : Nat) (imm : List Byte) (s : State) :
    (imm.length < n ∧ pushN c n imm s = .next (raiseFault .truncatedOperand s)) ∨
      (n ≤ imm.length ∧ s.size = c.stackCapacity ∧
        pushN c n imm s = .next (raiseFault .stackOverflow s)) ∨
      (n ≤ imm.length ∧ s.size ≠ c.stackCapacity ∧
        pushN c n imm s = .next (complete (1 + n) (fromBytes (imm.take n) :: s.stack) s)) := by
  unfold pushN pushOperand
  by_cases h : imm.length < n
  · exact .inl ⟨h, by simp [h, finish]⟩
  · have hn : n ≤ imm.length := by omega
    right
    simp only [h, if_false]
    obtain ⟨hc, hp⟩ | ⟨hc, hp⟩ := stackPush_cases c.stackCapacity (fromBytes (imm.take n)) s.stack
    · exact .inl ⟨hn, hc, by rw [hp]; rfl⟩
    · exact .inr ⟨hn, hc, by rw [hp]; rfl⟩

/-- R190: what a Dup can do. -/
theorem dupN_cases (c : Config) (n : Nat) (s : State) :
    (s.size ≤ n - 1 ∧ dupN c n s = .next (raiseFault .indexOutOfRange s)) ∨
      (n - 1 < s.size ∧ s.size = c.stackCapacity ∧
        dupN c n s = .next (raiseFault .stackOverflow s)) ∨
      (∃ v, s.stack[n - 1]? = some v ∧ s.size ≠ c.stackCapacity ∧
        dupN c n s = .next (complete 1 (v :: s.stack) s)) := by
  unfold dupN
  obtain ⟨h, e⟩ | ⟨h, hc, e⟩ | ⟨v, h, hc, e⟩ := stackDuplicate_cases c.stackCapacity (n - 1) s.stack
  · exact .inl ⟨h, by rw [e]; rfl⟩
  · exact .inr (.inl ⟨h, hc, by rw [e]; rfl⟩)
  · exact .inr (.inr ⟨v, h, hc, by rw [e]; rfl⟩)

/-- R210: what a Swap can do. -/
theorem swapN_cases (n : Nat) (s : State) :
    (s.size ≤ n ∧ swapN n s = .next (raiseFault .indexOutOfRange s)) ∨
      (∃ a b, s.stack[0]? = some a ∧ s.stack[n]? = some b ∧
        swapN n s = .next (complete 1 ((s.stack.set 0 b).set n a) s)) := by
  unfold swapN
  obtain ⟨h, e⟩ | ⟨a, b, h0, hn, e⟩ := stackSwap_cases n s.stack
  · exact .inl ⟨h, by rw [e]; rfl⟩
  · exact .inr ⟨a, b, h0, hn, by rw [e]; rfl⟩

/-- R230: what IsZero can do. -/
theorem execIsZero_cases (s : State) :
    (s.size = 0 ∧ execIsZero s = .next (raiseFault .stackUnderflow s)) ∨
      (∃ a rest, s.stack = a :: rest ∧
        execIsZero s = .next (complete 1 (isZeroResult a :: rest) s)) := by
  unfold execIsZero
  obtain ⟨h, e⟩ | ⟨a, rest, h, e⟩ := replaceTopByIsZero_cases s.stack
  · exact .inl ⟨by simp [State.size, h], by rw [e]; rfl⟩
  · exact .inr ⟨a, rest, h, by rw [e]; rfl⟩

/-- The 65 meanings are the instructions of the modelled build: dispatch reaches the family's routine
with the constructor's modifier. -/
theorem exec_eq_execWith (i : Instr) (s : State) : exec i s = execWith Config.build i s := by
  cases i <;> rfl

/-- The step is the step of the modelled build. -/
theorem step_eq_stepWith (s : State) : step s = stepWith Config.build s := by
  have h : exec = execWith Config.build := funext fun i => funext fun t => exec_eq_execWith i t
  simp only [step, stepWith, fetch, h]

/-- Every instruction's modifier lies in its family's range (R53). -/
theorem form_range (i : Instr) :
    match i.form with
    | .push n _ => 1 ≤ n ∧ n ≤ pushMax
    | .dup n => 1 ≤ n ∧ n ≤ dupMax
    | .swap n => 1 ≤ n ∧ n ≤ swapMax
    | .isZero => True := by
  cases i <;> simp [Instr.form, pushMax, dupMax, swapMax]

/-- The stack operation of an instruction on the build `c` and its length in bytes. -/
def stackOperation (c : Config) (f : Form) (S : List Word) : Nat × Except Fault (List Word) :=
  match f with
  | .push n imm =>
    match pushOperand n imm with
    | none => (1 + n, .error .truncatedOperand)
    | some bytes => (1 + n, stackPush c.stackCapacity (fromBytes bytes) S)
  | .dup n => (1, stackDuplicate c.stackCapacity (n - 1) S)
  | .swap n => (1, stackSwap n S)
  | .isZero => (1, replaceTopByIsZero S)

/-- Every instruction is one stack operation and the end of an instruction around it. -/
theorem execWith_eq_finish (c : Config) (i : Instr) (s : State) :
    execWith c i s =
      finish (stackOperation c i.form s.stack).1 (stackOperation c i.form s.stack).2 s := by
  unfold execWith
  cases i.form with
  | push n imm =>
    simp only [pushN, stackOperation]
    cases pushOperand n imm <;> rfl
  | dup n => rfl
  | swap n => rfl
  | isZero => rfl

/-- What a fetch can find (R121 to R123). -/
theorem fetchWith_cases (c : Config) (s : State) :
    (status s ≠ .running ∧ fetchWith c s = .notRunning) ∨
      (status s = .running ∧ ∃ e, decodeWith c (fetchBytes s) = .error e ∧
        fetchWith c s = .invalid) ∨
      (status s = .running ∧ ∃ i rest, decodeWith c (fetchBytes s) = .ok (i, rest) ∧
        fetchWith c s = .instr i) := by
  unfold fetchWith
  cases hs : status s with
  | running =>
    cases hd : decodeWith c (fetchBytes s) with
    | error e => exact .inr (.inl ⟨rfl, e, rfl, rfl⟩)
    | ok p => exact .inr (.inr ⟨rfl, p.1, p.2, rfl, rfl⟩)
  | halted => exact .inl ⟨by simp, rfl⟩
  | faulted => exact .inl ⟨by simp, rfl⟩

/-- What a step of the build `c` can be: refused, the fault of an invalid byte, or the decoded
instruction. -/
theorem stepWith_cases (c : Config) (s : State) :
    (status s ≠ .running ∧ stepWith c s = .refused .notRunning) ∨
      (status s = .running ∧ ∃ e, decodeWith c (fetchBytes s) = .error e ∧
        stepWith c s = .next (raiseFault .invalidOpcode s)) ∨
      (status s = .running ∧ ∃ i rest, decodeWith c (fetchBytes s) = .ok (i, rest) ∧
        stepWith c s = execWith c i s) := by
  unfold stepWith
  obtain ⟨h, e⟩ | ⟨h, d, hd, e⟩ | ⟨h, i, rest, hd, e⟩ := fetchWith_cases c s
  · exact .inl ⟨h, by rw [e]; rfl⟩
  · exact .inr (.inl ⟨h, d, hd, by rw [e]; rfl⟩)
  · exact .inr (.inr ⟨h, i, rest, hd, by rw [e]; rfl⟩)

/-- R14, R122: a machine is Running exactly when no fault is latched and `pc < len`. -/
theorem status_eq_running_iff (s : State) :
    status s = .running ↔ s.fault = none ∧ s.pc < s.len := by
  unfold status
  cases s.fault with
  | some k => simp
  | none => by_cases h : s.pc < s.len <;> simp [h]

end Sys2Proof.Machine
end

