-- ==== Sys2Proof/Laws/Memory.lean ====
section
/-! SUPPORT. The code space as cells has its canonical form in every state, so every operation keeps
it; and what the two reads of the code space answer. -/

namespace Sys2Proof.Machine

theorem wf_zipIdx (bytes : List Byte) (base : Nat) :
    Memory.wf ((bytes.zipIdx base).map fun p => (p.2, p.1)) = true := by
  induction bytes generalizing base with
  | nil => rfl
  | cons a rest ih =>
    cases rest with
    | nil => rfl
    | cons b rest =>
      have h := ih (base + 1)
      simp only [List.zipIdx_cons, List.map_cons] at h ⊢
      simp [Memory.wf, h]

/-- The cells of the code space are in canonical form, whatever the state: the operations that
write `code` (`loadCode`, `State.reset`, `withFetchWord`) and those that leave it all keep it. -/
theorem codeCells_wf (s : State) : Memory.wf (codeCells s) = true := wf_zipIdx s.code 0

theorem reset_memory_wf : Memory.wf (codeCells State.reset) = true := codeCells_wf _

theorem loadCode_memory_wf (bytes : List Byte) (s : State) :
    Memory.wf (codeCells (loadCode bytes s)) = true := codeCells_wf _

/-- R30: an offset holds a byte exactly when it lies inside the buffer. -/
theorem readByte_isSome_iff (s : State) (a : Nat) : (readByte s a).isSome = true ↔ a < s.len := by
  simp [readByte, State.len]

/-- R6: `MemRead` is defined exactly inside the buffer, and then answers the bytes there. -/
theorem memRead_eq_some_iff (s : State) (addr n : Nat) (bytes : List Byte) :
    memRead s addr n = some bytes ↔
      addr + n ≤ s.len ∧ bytes = (s.code.drop addr).take n := by
  unfold memRead
  split <;> simp_all [eq_comm]

/-- Reading after a load gives the loaded bytes. -/
theorem readByte_loadCode (bytes : List Byte) (s : State) (a : Nat) :
    readByte (loadCode bytes s) a = bytes[a]? := rfl

end Sys2Proof.Machine
end

