-- ==== Sys2Proof/Laws/PerInstr.lean ====
section
/-! SUPPORT. The per-instruction family `EncodedLength`: the length of every encoding (R50, R57). -/

namespace Sys2Proof.Laws.EncodedLength

/-- R57: a well-formed instruction's encoding has the length its opcode byte tells, and R50: at most
33 bytes. -/
def Statement (i : Instr) : Prop :=
  i.WellFormed →
    some (encode i).length = decodedLength (decodeByte Config.build (opcodeOf Config.build i.form)) ∧
      (encode i).length ≤ maxInstrBytes

/-- The statement of a Push, from its operand length. -/
theorem of_push {i : Instr} {n : Nat} {imm : List Byte} (hf : i.form = .push n imm)
    (hd : decodeByte Config.build (familyOpcode Config.build.opPush1 n) = .push n)
    (hn : n ≤ 32) : Statement i := by
  intro h
  have hl : imm.length = n := by simpa [Instr.WellFormed, Instr.wf, hf] using h
  simp only [encode, encodeWith, hf, opcodeOf, operandsOf, hd, decodedLength, List.length_cons,
    maxInstrBytes, hl]
  exact ⟨by congr 1; omega, by omega⟩

/-- The statement of an instruction without operand bytes. -/
theorem of_bare {i : Instr} (ho : operandsOf i.form = [])
    (hd : decodedLength (decodeByte Config.build (opcodeOf Config.build i.form)) = some 1) :
    Statement i := by
  intro _
  simp [encode, encodeWith, ho, hd, maxInstrBytes]

theorem push1 (imm : List Byte) : Statement (.push1 imm) := of_push rfl (by decide) (by decide)
theorem push2 (imm : List Byte) : Statement (.push2 imm) := of_push rfl (by decide) (by decide)
theorem push3 (imm : List Byte) : Statement (.push3 imm) := of_push rfl (by decide) (by decide)
theorem push4 (imm : List Byte) : Statement (.push4 imm) := of_push rfl (by decide) (by decide)
theorem push5 (imm : List Byte) : Statement (.push5 imm) := of_push rfl (by decide) (by decide)
theorem push6 (imm : List Byte) : Statement (.push6 imm) := of_push rfl (by decide) (by decide)
theorem push7 (imm : List Byte) : Statement (.push7 imm) := of_push rfl (by decide) (by decide)
theorem push8 (imm : List Byte) : Statement (.push8 imm) := of_push rfl (by decide) (by decide)
theorem push9 (imm : List Byte) : Statement (.push9 imm) := of_push rfl (by decide) (by decide)
theorem push10 (imm : List Byte) : Statement (.push10 imm) := of_push rfl (by decide) (by decide)
theorem push11 (imm : List Byte) : Statement (.push11 imm) := of_push rfl (by decide) (by decide)
theorem push12 (imm : List Byte) : Statement (.push12 imm) := of_push rfl (by decide) (by decide)
theorem push13 (imm : List Byte) : Statement (.push13 imm) := of_push rfl (by decide) (by decide)
theorem push14 (imm : List Byte) : Statement (.push14 imm) := of_push rfl (by decide) (by decide)
theorem push15 (imm : List Byte) : Statement (.push15 imm) := of_push rfl (by decide) (by decide)
theorem push16 (imm : List Byte) : Statement (.push16 imm) := of_push rfl (by decide) (by decide)
theorem push17 (imm : List Byte) : Statement (.push17 imm) := of_push rfl (by decide) (by decide)
theorem push18 (imm : List Byte) : Statement (.push18 imm) := of_push rfl (by decide) (by decide)
theorem push19 (imm : List Byte) : Statement (.push19 imm) := of_push rfl (by decide) (by decide)
theorem push20 (imm : List Byte) : Statement (.push20 imm) := of_push rfl (by decide) (by decide)
theorem push21 (imm : List Byte) : Statement (.push21 imm) := of_push rfl (by decide) (by decide)
theorem push22 (imm : List Byte) : Statement (.push22 imm) := of_push rfl (by decide) (by decide)
theorem push23 (imm : List Byte) : Statement (.push23 imm) := of_push rfl (by decide) (by decide)
theorem push24 (imm : List Byte) : Statement (.push24 imm) := of_push rfl (by decide) (by decide)
theorem push25 (imm : List Byte) : Statement (.push25 imm) := of_push rfl (by decide) (by decide)
theorem push26 (imm : List Byte) : Statement (.push26 imm) := of_push rfl (by decide) (by decide)
theorem push27 (imm : List Byte) : Statement (.push27 imm) := of_push rfl (by decide) (by decide)
theorem push28 (imm : List Byte) : Statement (.push28 imm) := of_push rfl (by decide) (by decide)
theorem push29 (imm : List Byte) : Statement (.push29 imm) := of_push rfl (by decide) (by decide)
theorem push30 (imm : List Byte) : Statement (.push30 imm) := of_push rfl (by decide) (by decide)
theorem push31 (imm : List Byte) : Statement (.push31 imm) := of_push rfl (by decide) (by decide)
theorem push32 (imm : List Byte) : Statement (.push32 imm) := of_push rfl (by decide) (by decide)
theorem dup1 : Statement .dup1 := of_bare rfl (by decide)
theorem dup2 : Statement .dup2 := of_bare rfl (by decide)
theorem dup3 : Statement .dup3 := of_bare rfl (by decide)
theorem dup4 : Statement .dup4 := of_bare rfl (by decide)
theorem dup5 : Statement .dup5 := of_bare rfl (by decide)
theorem dup6 : Statement .dup6 := of_bare rfl (by decide)
theorem dup7 : Statement .dup7 := of_bare rfl (by decide)
theorem dup8 : Statement .dup8 := of_bare rfl (by decide)
theorem dup9 : Statement .dup9 := of_bare rfl (by decide)
theorem dup10 : Statement .dup10 := of_bare rfl (by decide)
theorem dup11 : Statement .dup11 := of_bare rfl (by decide)
theorem dup12 : Statement .dup12 := of_bare rfl (by decide)
theorem dup13 : Statement .dup13 := of_bare rfl (by decide)
theorem dup14 : Statement .dup14 := of_bare rfl (by decide)
theorem dup15 : Statement .dup15 := of_bare rfl (by decide)
theorem dup16 : Statement .dup16 := of_bare rfl (by decide)
theorem swap1 : Statement .swap1 := of_bare rfl (by decide)
theorem swap2 : Statement .swap2 := of_bare rfl (by decide)
theorem swap3 : Statement .swap3 := of_bare rfl (by decide)
theorem swap4 : Statement .swap4 := of_bare rfl (by decide)
theorem swap5 : Statement .swap5 := of_bare rfl (by decide)
theorem swap6 : Statement .swap6 := of_bare rfl (by decide)
theorem swap7 : Statement .swap7 := of_bare rfl (by decide)
theorem swap8 : Statement .swap8 := of_bare rfl (by decide)
theorem swap9 : Statement .swap9 := of_bare rfl (by decide)
theorem swap10 : Statement .swap10 := of_bare rfl (by decide)
theorem swap11 : Statement .swap11 := of_bare rfl (by decide)
theorem swap12 : Statement .swap12 := of_bare rfl (by decide)
theorem swap13 : Statement .swap13 := of_bare rfl (by decide)
theorem swap14 : Statement .swap14 := of_bare rfl (by decide)
theorem swap15 : Statement .swap15 := of_bare rfl (by decide)
theorem swap16 : Statement .swap16 := of_bare rfl (by decide)
theorem isZero : Statement .isZero := of_bare rfl (by decide)

end Sys2Proof.Laws.EncodedLength
end

