-- ==== Sys2Proof/Tests/Slice0.lean ====
section
/-! SUPPORT. The model's own tests, with expected results taken from the spec (95_test_vectors.md and the
examples of the rules), and the witnesses that the hypotheses of the statements can be met. -/

open Sys2Proof Sys2Proof.Machine

namespace Sys2Proof.Tests

/-- A machine with no fault. -/
def machine (code : List Byte) (pc : Nat) (stack : List Word) : State := ⟨code, pc, stack, none⟩

/-- The state of a next outcome; reset otherwise. -/
def nextOf (r : Host.Outcome State Fault Refusal) : State :=
  match r with
  | .next s => s
  | .fault _ => State.reset
  | .refused _ => State.reset

/-- Whether an outcome is a next state. -/
def isNext (r : Host.Outcome State Fault Refusal) : Bool :=
  match r with
  | .next _ => true
  | .fault _ => false
  | .refused _ => false

/-- `pc`, stack and latch of a state. -/
def view (s : State) : Nat × List Word × Option Fault := (s.pc, s.stack, s.fault)

/-- The instruction a byte sequence decodes to. -/
def decoded (bytes : List Byte) : Option Instr :=
  match decode bytes with
  | .ok (i, _) => some i
  | .error _ => none

/-- The bytes 1, 2, .., n. -/
def counting (n : Nat) : List Byte := (List.range n).map fun k => BitVec.ofNat 8 (k + 1)

/-- A stack as full as the build allows. -/
def fullStack : List Word := List.replicate Config.build.stackCapacity 1

theorem fullStack_length : fullStack.length = Config.build.stackCapacity := List.length_replicate

/-! Well-formedness: the one check refuses an operand that is too short or too long. -/

theorem test_wf_refuses_short_push1 : Instr.wf (.push1 []) = false := by decide
theorem test_wf_refuses_long_push1 : Instr.wf (.push1 [1, 2]) = false := by decide
theorem test_wf_refuses_short_push32 : Instr.wf (.push32 (counting 31)) = false := by decide
theorem test_wf_accepts_push2 : Instr.wf (.push2 [0, 5]) = true := by decide

/-! Decoding, word by word from the map of R54 (30_encoding.md section 3). -/

theorem test_decode_push_words_1 :
    decoded (0b01100000 :: counting 1) = some (.push1 (counting 1)) ∧
    decoded (0b01100001 :: counting 2) = some (.push2 (counting 2)) ∧
    decoded (0b01100010 :: counting 3) = some (.push3 (counting 3)) ∧
    decoded (0b01100011 :: counting 4) = some (.push4 (counting 4)) ∧
    decoded (0b01100100 :: counting 5) = some (.push5 (counting 5)) ∧
    decoded (0b01100101 :: counting 6) = some (.push6 (counting 6)) ∧
    decoded (0b01100110 :: counting 7) = some (.push7 (counting 7)) ∧
    decoded (0b01100111 :: counting 8) = some (.push8 (counting 8)) := by
  decide

theorem test_decode_push_words_9 :
    decoded (0b01101000 :: counting 9) = some (.push9 (counting 9)) ∧
    decoded (0b01101001 :: counting 10) = some (.push10 (counting 10)) ∧
    decoded (0b01101010 :: counting 11) = some (.push11 (counting 11)) ∧
    decoded (0b01101011 :: counting 12) = some (.push12 (counting 12)) ∧
    decoded (0b01101100 :: counting 13) = some (.push13 (counting 13)) ∧
    decoded (0b01101101 :: counting 14) = some (.push14 (counting 14)) ∧
    decoded (0b01101110 :: counting 15) = some (.push15 (counting 15)) ∧
    decoded (0b01101111 :: counting 16) = some (.push16 (counting 16)) := by
  decide

theorem test_decode_push_words_17 :
    decoded (0b01110000 :: counting 17) = some (.push17 (counting 17)) ∧
    decoded (0b01110001 :: counting 18) = some (.push18 (counting 18)) ∧
    decoded (0b01110010 :: counting 19) = some (.push19 (counting 19)) ∧
    decoded (0b01110011 :: counting 20) = some (.push20 (counting 20)) ∧
    decoded (0b01110100 :: counting 21) = some (.push21 (counting 21)) ∧
    decoded (0b01110101 :: counting 22) = some (.push22 (counting 22)) ∧
    decoded (0b01110110 :: counting 23) = some (.push23 (counting 23)) ∧
    decoded (0b01110111 :: counting 24) = some (.push24 (counting 24)) := by
  decide

theorem test_decode_push_words_25 :
    decoded (0b01111000 :: counting 25) = some (.push25 (counting 25)) ∧
    decoded (0b01111001 :: counting 26) = some (.push26 (counting 26)) ∧
    decoded (0b01111010 :: counting 27) = some (.push27 (counting 27)) ∧
    decoded (0b01111011 :: counting 28) = some (.push28 (counting 28)) ∧
    decoded (0b01111100 :: counting 29) = some (.push29 (counting 29)) ∧
    decoded (0b01111101 :: counting 30) = some (.push30 (counting 30)) ∧
    decoded (0b01111110 :: counting 31) = some (.push31 (counting 31)) ∧
    decoded (0b01111111 :: counting 32) = some (.push32 (counting 32)) := by
  decide

theorem test_decode_dup_words_1 :
    decoded [0b10000000] = some .dup1 ∧
    decoded [0b10000001] = some .dup2 ∧
    decoded [0b10000010] = some .dup3 ∧
    decoded [0b10000011] = some .dup4 ∧
    decoded [0b10000100] = some .dup5 ∧
    decoded [0b10000101] = some .dup6 ∧
    decoded [0b10000110] = some .dup7 ∧
    decoded [0b10000111] = some .dup8 := by
  decide

theorem test_decode_dup_words_9 :
    decoded [0b10001000] = some .dup9 ∧
    decoded [0b10001001] = some .dup10 ∧
    decoded [0b10001010] = some .dup11 ∧
    decoded [0b10001011] = some .dup12 ∧
    decoded [0b10001100] = some .dup13 ∧
    decoded [0b10001101] = some .dup14 ∧
    decoded [0b10001110] = some .dup15 ∧
    decoded [0b10001111] = some .dup16 := by
  decide

theorem test_decode_swap_words_1 :
    decoded [0b10010000] = some .swap1 ∧
    decoded [0b10010001] = some .swap2 ∧
    decoded [0b10010010] = some .swap3 ∧
    decoded [0b10010011] = some .swap4 ∧
    decoded [0b10010100] = some .swap5 ∧
    decoded [0b10010101] = some .swap6 ∧
    decoded [0b10010110] = some .swap7 ∧
    decoded [0b10010111] = some .swap8 := by
  decide

theorem test_decode_swap_words_9 :
    decoded [0b10011000] = some .swap9 ∧
    decoded [0b10011001] = some .swap10 ∧
    decoded [0b10011010] = some .swap11 ∧
    decoded [0b10011011] = some .swap12 ∧
    decoded [0b10011100] = some .swap13 ∧
    decoded [0b10011101] = some .swap14 ∧
    decoded [0b10011110] = some .swap15 ∧
    decoded [0b10011111] = some .swap16 := by
  decide

theorem test_decode_isZero_word : decoded [0b00010101] = some .isZero := by decide

/-- 95_test_vectors.md 2.4: the invalid bytes of the decoder's table. -/
theorem test_decode_invalid_bytes :
    ([0x00, 0x01, 0x14, 0x16, 0x5f, 0xa0, 0xff] : List Byte).all
      (fun b => decodeByte Config.build b == .invalid) = true := by
  decide

/-- 95_test_vectors.md 2.4: "65 valid bytes, 191 invalid". -/
theorem test_decode_counts_invalid :
    ((List.range 256).filter
      (fun k => decodeByte Config.build (BitVec.ofNat 8 k) == .invalid)).length = 191 := by
  decide +kernel

/-- Another opcode map that satisfies R60 is decoded by its own ranges (R54, D1). -/
def otherMap : Config := { Config.build with opPush1 := 0xe0, opDup1 := 0x03, opSwap1 := 0x13, opIsZero := 0x00 }

theorem test_other_map_valid : otherMap.Valid := by decide
theorem test_other_map_decodes :
    decodeByte otherMap 0xff = .push 32 ∧ decodeByte otherMap 0x12 = .dup 16 ∧
      decodeByte otherMap 0x13 = .swap 1 ∧ decodeByte otherMap 0x15 = .swap 3 := by
  decide

theorem test_table_word_push2 : decodeTableWord 24 0x020161 = some (.push2 [1, 2]) := by decide
theorem test_table_word_zero_operands :
    decodeTableWord 8 0x67 = some (.push8 (List.replicate 8 0)) := by
  decide
theorem test_placed_word_runs :
    view (nextOf (step (State.reset.withFetchWord 24 0x020161))) = (3, [258], none) := by
  decide

/-! The examples of R151 to R182: the bytes 01 02 .. N push the Word whose decimal the spec gives. -/

/-- One Push example: opcode byte of N, operand 1 .. N, the decimal of the spec. -/
def pushExample (n decimal : Nat) : Bool :=
  view (nextOf (step (machine (BitVec.ofNat 8 (0x5f + n) :: counting n) 0 []))) ==
    (n + 1, [BitVec.ofNat 256 decimal], none)

theorem test_push_examples_1 :
    pushExample 1 1 = true ∧
    pushExample 2 258 = true ∧
    pushExample 3 66051 = true ∧
    pushExample 4 16909060 = true ∧
    pushExample 5 4328719365 = true ∧
    pushExample 6 1108152157446 = true ∧
    pushExample 7 283686952306183 = true ∧
    pushExample 8 72623859790382856 = true := by
  decide

theorem test_push_examples_9 :
    pushExample 9 18591708106338011145 = true ∧
    pushExample 10 4759477275222530853130 = true ∧
    pushExample 11 1218426182456967898401291 = true ∧
    pushExample 12 311917102708983781990730508 = true ∧
    pushExample 13 79850778293499848189627010061 = true ∧
    pushExample 14 20441799243135961136544514575630 = true ∧
    pushExample 15 5233100606242806050955395731361295 = true ∧
    pushExample 16 1339673755198158349044581307228491536 = true := by
  decide

theorem test_push_examples_17 :
    pushExample 17 342956481330728537355412814650493833233 = true ∧
    pushExample 18 87796859220666505562985680550526421307666 = true ∧
    pushExample 19 22475995960490625424124334220934763854762515 = true ∧
    pushExample 20 5753854965885600108575829560559299546819203860 = true ∧
    pushExample 21 1472986871266713627795412367503180683985716188181 = true ∧
    pushExample 22 377084639044278688715625566080814255100343344174358 = true ∧
    pushExample 23 96533667595335344311200144916688449305687896108635671 = true ∧
    pushExample 24 24712618904405848143667237098672243022256101403810731800 = true := by
  decide

theorem test_push_examples_25 :
    pushExample 25 6326430439527897124778812697260094213697561959375547340825 = true ∧
    pushExample 26 1619566192519141663943376050498584118706575861600140119251226 = true ∧
    pushExample 27 414608945284900265969504268927637534388883420569635870528313883 = true ∧
    pushExample 28 106139889992934468088193092845475208803554155665826782855248354076 = true ∧
    pushExample 29 27171811838191223830577431768441653453709863850451656410943578643485 = true ∧
    pushExample 30 6955983830576953300627822532721063284149725145715624041201556132732190 = true ∧
    pushExample 31 1780731860627700044960722568376592200742329637303199754547598369979440671 = true ∧
    pushExample 32 455867356320691211509944977504407603390036387149619137164185182714736811808 = true := by
  decide

/-! The examples of R191 to R206 and R211 to R226. -/

/-- The stack `[1, 2, .., n]`. -/
def upTo (n : Nat) : List Word := (List.range n).map fun k => BitVec.ofNat 256 (k + 1)

theorem test_dup_examples :
    (List.range 16).all (fun k =>
      view (nextOf (step (machine [BitVec.ofNat 8 (0x80 + k)] 0 (upTo (k + 1))))) ==
        (1, BitVec.ofNat 256 (k + 1) :: upTo (k + 1), none)) = true := by
  decide

theorem test_swap_examples :
    (List.range 16).all (fun k =>
      view (nextOf (step (machine [BitVec.ofNat 8 (0x90 + k)] 0 (0 :: upTo (k + 1))))) ==
        (1, BitVec.ofNat 256 (k + 1) :: (upTo k ++ [0]), none)) = true := by
  decide

/-- Dup needs N elements and Swap N + 1: with one element fewer each faults (R246, F2 to F5). -/
theorem test_depth_shortage :
    (List.range 16).all (fun k =>
      view (nextOf (step (machine [BitVec.ofNat 8 (0x80 + k)] 0 (upTo k)))) ==
        (0, upTo k, some .indexOutOfRange) &&
      view (nextOf (step (machine [BitVec.ofNat 8 (0x90 + k)] 0 (upTo (k + 1))))) ==
        (0, upTo (k + 1), some .indexOutOfRange)) = true := by
  decide

/-- T7, F10, F12 (95_test_vectors.md): IsZero of 2, of 0 and of the Word with only bit 255 set. -/
theorem test_isZero_examples :
    view (nextOf (step (machine [0x15] 0 [2, 9]))) = (1, [0, 9], none) ∧
    view (nextOf (step (machine [0x15] 0 [0, 9]))) = (1, [1, 9], none) ∧
    view (nextOf (step (machine [0x15] 0 [0x8000000000000000000000000000000000000000000000000000000000000000]))) =
      (1, [0], none) := by
  decide

/-- F1: IsZero on an empty stack. -/
theorem test_isZero_underflow :
    view (nextOf (step (machine [0x15] 0 []))) = (0, [], some .stackUnderflow) := by
  decide

/-- F8: IsZero works on a full stack. -/
theorem test_isZero_on_full_stack :
    view (nextOf (exec .isZero (machine [0x15] 0 fullStack))) =
      (1, 0 :: List.replicate 1023 1, none) := by
  decide +kernel

/-- 95_test_vectors.md 2.5: one operand byte short, at `pc` 2. -/
theorem test_push_truncated :
    view (nextOf (step (machine [0x60, 0x01, 0x61, 0x02] 2 [1]))) =
      (2, [1], some .truncatedOperand) := by
  decide

/-- 95_test_vectors.md 2.5: a truncated Push on a full stack reports the truncation (R250), and one
with its operand byte the overflow. -/
theorem test_push_fault_order :
    view (nextOf (exec (.push2 [3]) (machine [] 0 fullStack))) =
        (0, fullStack, some .truncatedOperand) ∧
      view (nextOf (exec (.push1 [3]) (machine [] 0 fullStack))) =
        (0, fullStack, some .stackOverflow) := by
  decide +kernel

/-- The same for a capacity of 2 (the vectors' own), through the family's routine. -/
theorem test_capacity_two :
    view (nextOf (pushN { Config.build with stackCapacity := 2 } 1 [3] (machine [] 4 [2, 1]))) =
        (4, [2, 1], some .stackOverflow) ∧
      view (nextOf (pushN { Config.build with stackCapacity := 2 } 2 [3] (machine [] 4 [2, 1]))) =
        (4, [2, 1], some .truncatedOperand) ∧
      view (nextOf (dupN { Config.build with stackCapacity := 2 } 1 (machine [] 4 [2, 1]))) =
        (4, [2, 1], some .stackOverflow) := by
  decide

/-- F13, F14: an invalid byte at `pc` 2. -/
theorem test_invalid_opcode :
    view (nextOf (step (machine [0x60, 0x01, 0x00, 0x60, 0x02] 2 [1]))) =
      (2, [1], some .invalidOpcode) := by
  decide

/-! The stack engine with capacity 3 (95_test_vectors.md 2.3). -/

/-- The result of an operation as an Option, and its error. -/
def okOf {α : Type} (r : Except Fault α) : Option α :=
  match r with
  | .ok v => some v
  | .error _ => none

def errOf {α : Type} (r : Except Fault α) : Option Fault :=
  match r with
  | .ok _ => none
  | .error k => some k

theorem test_stack_engine_errors :
    errOf (stackTop []) = some .stackUnderflow ∧ errOf (stackPop []) = some .stackUnderflow ∧
    errOf (stackElementAt 0 []) = some .indexOutOfRange ∧
    errOf (stackSwap 0 []) = some .indexOutOfRange ∧
    errOf (stackDuplicate 3 0 []) = some .indexOutOfRange ∧
    errOf (stackSwap 1 [1]) = some .indexOutOfRange ∧
    errOf (stackPush 3 9 [2, 1, 2]) = some .stackOverflow ∧
    errOf (stackDuplicate 3 0 [2, 1, 2]) = some .stackOverflow ∧
    errOf (stackDuplicate 3 3 [2, 1, 2]) = some .indexOutOfRange ∧
    errOf (stackElementAt 3 [2, 1, 2]) = some .indexOutOfRange := by
  decide

theorem test_stack_engine_results :
    okOf (stackSwap 0 [1]) = some [1] ∧ okOf (stackSwap 1 [2, 1]) = some [1, 2] ∧
    okOf (stackDuplicate 3 1 [1, 2]) = some [2, 1, 2] ∧
    okOf (stackElementAt 2 [2, 1, 2]) = some 2 ∧ okOf (stackPop [2, 1, 2]) = some (2, [1, 2]) ∧
    okOf (stackTop [1, 2]) = some 1 ∧ stackSize [1, 2] = 2 := by
  decide

/-! The Word unit (95_test_vectors.md 2.1, 2.2). -/

/-- `2^256 - 1`. -/
def wordMax : Word := BitVec.allOnes 256

theorem test_word_construction :
    fromBytes [0x01, 0x02] = 258 ∧ fromBytes [0x00, 0x05] = 5 ∧ fromBytes [] = 0 ∧
    fromBytes (0x01 :: (List.replicate 31 0 ++ [0x07])) = 7 ∧
    fromInt (2 ^ 256 + 3) = some 3 ∧ fromInt (-1) = none ∧
    toBytes 258 = List.replicate 30 0 ++ [0x01, 0x02] ∧
    toBytes wordMax = List.replicate 32 0xff := by
  decide

theorem test_word_arithmetic :
    wordAdd 0xff 0x01 = 0x100 ∧ wordAdd wordMax 1 = 0 ∧ wordAdd wordMax wordMax = wordMax - 1 ∧
    wordSubtract 5 7 = wordMax - 1 ∧ wordSubtract 0 1 = wordMax ∧ wordSubtract 7 5 = 2 ∧
    wordMultiply 0xffffffff 0xffffffff = 0xfffffffe00000001 ∧
    wordMultiply wordMax wordMax = 1 ∧
    wordMultiply 0x100000000000000000000000000000000 0x100000000000000000000000000000000 = 0 ∧
    wordMultiply 12345678901234567890123456789 98765432109876543210 =
      1219326311370217952249657064223746380111126352690 ∧
    wordDivide Config.build 7 2 = 3 ∧ wordDivide Config.build 2 7 = 0 ∧
    wordDivide Config.build wordMax 3 =
      0x5555555555555555555555555555555555555555555555555555555555555555 ∧
    wordEquals wordMax 0 = false ∧ wordEquals 5 5 = true ∧
    wordIsZero 0 = true ∧ wordIsZero 1 = false := by
  decide

/-- R88: the divisor zero gives the parameter, whatever it is. -/
theorem test_divide_by_zero :
    wordDivide { Config.build with divByZeroResult := 77 } 5 0 = 77 ∧
      wordDivide { Config.build with divByZeroResult := 77 } 0 0 = 77 := by
  decide

/-! Host transactions (95_test_vectors.md 2.7, P3, P5). -/

theorem test_reset_then_step_refused :
    transact .step State.reset = (State.reset, .refused) := by
  decide

theorem test_load_then_step :
    view (transact .step (transact (.loadCode [0x60, 0x01, 0x60, 0x02]) State.reset).1).1 =
      (2, [1], none) := by
  decide

theorem test_running_refuses :
    (transact .pop (machine [0x60, 0x01, 0x60, 0x02] 2 [1])).2 = .refused ∧
      (transact (.loadCode [0x60, 0x09]) (machine [0x60, 0x01, 0x60, 0x02] 2 [1])).2 = .refused ∧
      (transact .readTop (machine [0x60, 0x01, 0x60, 0x02] 2 [1])).2 = .word 1 := by
  decide

theorem test_execute_keeps_the_stack :
    view (transact (.execute [0x60, 0x00, 0x15]) (machine [0x60, 0x02, 0x15] 3 [0])).1 =
      (3, [1, 0], none) := by
  decide

theorem test_execute_fault :
    transact (.execute [0x91]) (machine [0x80] 1 [1, 1]) =
      (⟨[0x91], 0, [1, 1], some .indexOutOfRange⟩, .finished (some .indexOutOfRange)) := by
  decide

theorem test_empty_buffer_halts :
    transact (.execute []) State.reset = (State.reset, .finished none) := by
  decide

theorem test_load_too_long :
    (transactWith { Config.build with codeMaxLen := some 1 } (.loadCode [0x60, 0x01]) State.reset).2 =
      .refused := by
  decide

/-! The assembler (R62 to R67). -/

theorem test_assembler :
    asmCompile 0x60 [.literal 0x2a] asmEmpty = some [0x60, 0x2a] ∧
    asmCompile 0x61 [.bytes [0x01, 0x02]] asmEmpty = some [0x61, 0x01, 0x02] ∧
    asmCompileAdjust 0x60 2 [.bytes [1, 2, 3]] asmEmpty = some [0x62, 1, 2, 3] ∧
    asmCompileAdjust 0x80 15 [] asmEmpty = some [0x8f] ∧
    asmCompileAdjust 0x80 16 [] asmEmpty = some [0x90] ∧
    asmCompileAdjust 0x90 112 [] asmEmpty = none ∧
    asmCompile 0x60 [.literal 256] asmEmpty = none := by
  decide

/-- P1's second line and a comment-free listing of it (R67). -/
theorem test_listing :
    listingLine (.push2 [0x00, 0xa5]) = "Push2 00 a5" ∧ listingLine .dup16 = "Dup16" ∧
      listingLine .isZero = "IsZero" := by
  decide

/-! Runs of other builds (95_test_vectors.md 2.5 and 2.6, the rows with STACK_CAPACITY = 2). -/

/-- The build of those rows. -/
def capacityTwo : Config := { Config.build with stackCapacity := 2 }

theorem test_execute_capacity_two :
    view (transactWith capacityTwo (.execute [0x60, 1, 0x60, 2, 0x60, 3]) State.reset).1 =
        (4, [2, 1], some .stackOverflow) ∧
      view (transactWith capacityTwo (.execute [0x60, 1, 0x60, 2, 0x61, 3]) State.reset).1 =
        (4, [2, 1], some .truncatedOperand) ∧
      view (transactWith capacityTwo (.execute [0x60, 1, 0x60, 2, 0x80]) State.reset).1 =
        (4, [2, 1], some .stackOverflow) ∧
      view (transactWith capacityTwo (.execute [0x60, 0, 0x60, 0, 0x15, 0x91]) State.reset).1 =
        (5, [1, 0], some .indexOutOfRange) := by
  decide

/-- R54, D1: a build with another opcode map runs by that map: Push1 is 0xe0, Dup1 is 0x03, Swap1 is
0x13 and IsZero is 0x00, and the default's Push1 byte is invalid. -/
theorem test_execute_other_map :
    view (transactWith otherMap (.execute [0xe0, 7, 0x03, 0x00, 0x13]) State.reset).1 =
        (5, [7, 0], none) ∧
      view (transactWith otherMap (.execute [0x60, 7]) State.reset).1 =
        (0, [], some .invalidOpcode) := by
  decide

/-! Witnesses: for every statement with hypotheses, states and operands that meet them, at the values
where its clauses meet. -/

theorem witness_DecodeReturnsEncodedInstruction :
    Config.build.Valid ∧ otherMap.Valid ∧ (Instr.push1 [7]).WellFormed ∧
      (Instr.push32 (counting 32)).WellFormed ∧ Instr.swap16.WellFormed := by
  decide

theorem witness_EncodeRebuildsDecodedBytes :
    decodeWith Config.build [0x61, 1, 2, 3] = .ok (.push2 [1, 2], [3]) ∧
      decodeWith Config.build [0x61, 1] = .ok (.push2 [1], []) :=
  ⟨rfl, rfl⟩

theorem witness_OpcodeIsBasePlusOffset :
    otherMap.Valid ∧ Instr.dup16.form = .dup 16 ∧ (Instr.push1 []).form = .push 1 [] ∧
      Instr.swap1.form = .swap 1 ∧ Instr.isZero.form = .isZero := by
  decide

theorem witness_DecodeByteByRange : Config.build.Valid ∧ otherMap.Valid := by decide

theorem witness_InvalidOpcodeExactly :
    status (machine [0x60, 0, 0xa0] 2 fullStack) = .running ∧
      readByte (machine [0x60, 0, 0xa0] 2 fullStack) 2 = some 0xa0 := by
  decide +kernel

theorem witness_WordArithmeticLaws : (1 : Word) ≠ wordZero := by decide

theorem witness_FromBytesIsBigEndian :
    (counting 32).length ≤ 32 ∧ ([] : List Byte).length ≤ 32 ∧ (counting 32).length = 32 := by
  decide

theorem witness_FromIntReduces : (0 : Int) ≤ 0 ∧ (-1 : Int) < 0 := by decide

theorem witness_StackEngineAnswers :
    ([] : List Word).length ≤ 0 ∧ ([7] : List Word)[0]? = some 7 ∧
      ([7, 8] : List Word)[1]? = some 8 := by
  decide

theorem witness_StackOperationsKeepOrder :
    okOf (stackPush 3 5 [1]) = some [5, 1] ∧ okOf (stackDuplicate 3 0 [1]) = some [1, 1] ∧
      okOf (stackPop [5, 1]) = some (5, [1]) ∧ okOf (stackSwap 0 [5]) = some [5] ∧
      okOf (stackSwap 1 [5, 1]) = some [1, 5] := by
  decide

theorem witness_SwapTwiceRestores :
    Instr.swap16.form = .swap 16 ∧ 16 < (machine [] 0 (upTo 17)).size := by
  decide

theorem witness_PushCompletes :
    (Instr.push32 (counting 32)).form = .push 32 (counting 32) ∧
      (Instr.push32 (counting 32)).WellFormed ∧
      (machine [] 0 (upTo 1)).size ≠ Config.build.stackCapacity ∧
      (machine [] 0 (List.replicate 1023 1)).size ≠ Config.build.stackCapacity := by
  decide +kernel

theorem witness_DupCompletes :
    Instr.dup16.form = .dup 16 ∧ 16 ≤ (machine [] 0 (upTo 16)).size ∧
      (machine [] 0 (upTo 16)).size ≠ Config.build.stackCapacity := by
  decide

theorem witness_SwapCompletes :
    Instr.swap1.form = .swap 1 ∧ 1 < (machine [] 0 (upTo 2)).size ∧
      16 < (machine [] 0 fullStack).size := by
  decide +kernel

theorem witness_IsZeroCompletes :
    (machine [] 0 fullStack).stack = 1 :: List.replicate 1023 1 ∧
      (machine [] 0 [0]).stack = [0] := by
  decide +kernel

theorem witness_StepRunsDecodedInstruction :
    (machine [0x60, 1] 0 []).fault = none ∧ (machine [0x60, 1] 0 []).pc < (machine [0x60, 1] 0 []).len ∧
      decode (fetchBytes (machine [0x60, 1] 0 [])) = .ok (.push1 [1], []) ∧
      decode (fetchBytes (machine [0x60, 1, 0xff] 2 [])) = .error (.invalidOpcode 0xff) :=
  ⟨rfl, by decide, rfl, rfl⟩

theorem witness_StepOnlyWhenRunning :
    (State.reset.fault = none ∧ ¬ State.reset.pc < State.reset.len) ∧
      ((machine [0x15] 0 []).fault = none ∧ (machine [0x15] 0 []).pc < (machine [0x15] 0 []).len) := by
  decide

/-- Push1 at the end of the buffer (its operand the last byte), one byte short, and on a full stack. -/
theorem witness_PushStepFollowsRule :
    status (machine [0x60, 9] 0 []) = .running ∧ readByte (machine [0x60, 9] 0 []) 0 = some 0x60 ∧
      (0x60 : Byte).toNat = Config.build.opPush1.toNat + (1 - 1) ∧
      1 ≤ (machine [0x60, 9] 0 []).len - (0 + 1) ∧ 0 + 1 + 1 = (machine [0x60, 9] 0 []).len ∧
      status (machine [0x60] 0 []) = .running ∧ (machine [0x60] 0 []).len - (0 + 1) < 1 ∧
      status (machine [0x60, 9] 0 fullStack) = .running ∧
      (machine [0x60, 9] 0 fullStack).size = Config.build.stackCapacity ∧
      (0x7f : Byte).toNat = Config.build.opPush1.toNat + (32 - 1) := by
  decide +kernel

theorem witness_DupStepFollowsRule :
    status (machine [0x8f] 0 (upTo 15)) = .running ∧ readByte (machine [0x8f] 0 (upTo 15)) 0 = some 0x8f ∧
      (0x8f : Byte).toNat = Config.build.opDup1.toNat + (16 - 1) ∧
      (machine [0x8f] 0 (upTo 15)).size < 16 ∧ 16 ≤ (machine [0x8f] 0 (upTo 16)).size ∧
      (machine [0x8f] 0 fullStack).size = Config.build.stackCapacity := by
  decide +kernel

theorem witness_SwapStepFollowsRule :
    status (machine [0x90] 0 [5, 5]) = .running ∧ readByte (machine [0x90] 0 [5, 5]) 0 = some 0x90 ∧
      (0x90 : Byte).toNat = Config.build.opSwap1.toNat + (1 - 1) ∧
      (machine [0x90] 0 [5]).size ≤ 1 ∧ (machine [0x90] 0 [5, 5]).stack[0]? = some 5 ∧
      (machine [0x90] 0 [5, 5]).stack[1]? = some 5 := by
  decide

theorem witness_IsZeroStepFollowsRule :
    status (machine [0x15] 0 []) = .running ∧
      readByte (machine [0x15] 0 []) 0 = some Config.build.opIsZero ∧
      (machine [0x15] 0 []).size = 0 ∧ (machine [0x15] 0 [0]).stack = [0] ∧
      status (machine [0x15] 0 [0]) = .running := by
  decide

theorem witness_StepFaultsExactlyOnCause :
    status (machine [0x15] 0 []) = .running ∧
      FaultCause Config.build (machine [0x15] 0 []) .stackUnderflow ∧
      FaultCause Config.build (machine [0x61, 1] 0 fullStack) .truncatedOperand ∧
      FaultCause Config.build (machine [0x80] 0 fullStack) .stackOverflow ∧
      FaultCause Config.build (machine [0x90] 0 [1]) .indexOutOfRange ∧
      FaultCause Config.build (machine [0xff] 0 []) .invalidOpcode :=
  ⟨by decide, ⟨0x15, by decide, by decide, by decide⟩,
    ⟨0x61, by decide, 2, by decide, by decide⟩,
    ⟨0x80, by decide, fullStack_length, .inr ⟨1, by decide, by decide +kernel⟩⟩,
    ⟨0x90, by decide, .inr ⟨1, by decide, by decide +kernel⟩⟩,
    ⟨0xff, by decide, by decide⟩⟩

theorem witness_FaultWritesLatchOnly :
    step (machine [0x15] 0 []) = .next ⟨[0x15], 0, [], some .stackUnderflow⟩ := rfl

theorem witness_TruncatedExactlyWhenShort :
    status (machine [0x60] 0 fullStack) = .running ∧
      readByte (machine [0x60] 0 fullStack) 0 = some 0x60 ∧
      (machine [0x60] 0 fullStack).len - (0 + 1) < 1 ∧
      ¬ (machine [0x60, 1] 0 fullStack).len - (0 + 1) < 1 := by
  decide +kernel

theorem witness_InstructionFrame :
    isNext (exec (.push1 [1]) (machine [] 0 [])) = true ∧
      isNext (exec .swap1 (machine [] 0 [1, 2])) = true ∧
      isNext (exec .dup1 (machine [] 0 [])) = true := by
  decide

theorem witness_EffectDependsOnStackOnly :
    (machine [] 0 [1]).stack = (machine [0x80] 7 [1]).stack ∧
      (machine [] 0 [1]).fault = none ∧ (machine [0x80] 7 [1]).fault = none ∧
      isNext (exec .dup1 (machine [] 0 [1])) = true ∧
      isNext (exec .dup1 (machine [0x80] 7 [1])) = true := by
  decide

theorem witness_PcAdvancesByLength :
    view (nextOf (step (machine [0x61, 1, 2] 0 []))) = (3, [258], none) ∧
      view (nextOf (step (machine [0x15] 0 []))) = (0, [], some .stackUnderflow) := by
  decide

theorem witness_StepKeepsInv :
    StateInv (machine [0x60, 1] 0 fullStack) ∧ StateInv (machine [0x60, 1] 0 []) ∧
      isNext (step (machine [0x60, 1] 0 fullStack)) = true ∧
      isNext (step (machine [0x60, 1] 0 [])) = true :=
  ⟨⟨by decide, fullStack_length.le, fun _ h => (by cases h), by decide⟩,
    ⟨by decide, by decide, fun _ h => (by cases h), by decide⟩, by decide +kernel, by decide⟩

/-- A build whose longest buffer is exactly the one that is loaded. -/
def tightBuild : Config := { Config.build with stackCapacity := 2, codeMaxLen := some 1 }

theorem witness_TransactionsKeepInv :
    StateInvOf tightBuild (machine [0x15] 1 [0]) ∧
      Reachable tightBuild (transactWith tightBuild (.execute [0x15]) State.reset).1 ∧
      (transactWith tightBuild (.execute [0x15]) State.reset).1.len = 1 :=
  ⟨⟨by decide, by decide, fun _ h => (by cases h; decide), by decide⟩, .transact _ .reset, by decide⟩

theorem witness_LatchedFaultHasCause :
    LatchCaused Config.build (machine [0x15] 0 []) ∧
      step (machine [0x15] 0 []) = .next ⟨[0x15], 0, [], some .stackUnderflow⟩ ∧
      Reachable Config.build (transact (.execute [0x15]) State.reset).1 ∧
      (transact (.execute [0x15]) State.reset).1.fault = some .stackUnderflow :=
  ⟨fun _ h => (by cases h), rfl, .transact _ .reset, by decide⟩

theorem witness_CodeWrittenOnlyByLoad :
    isNext (step (machine [0x15] 0 [0])) = true ∧
      (transact (.loadCode [0x15]) State.reset).1.code ≠ State.reset.code ∧
      (transact (.execute [0x15]) State.reset).1.code ≠ State.reset.code ∧
      (transact .reset (machine [0x15] 0 [])).1.code ≠ (machine [0x15] 0 []).code := by
  decide

theorem witness_StackChangedOnlyBy :
    (transact .step (machine [0x15] 0 [0])).1.stack ≠ (machine [0x15] 0 [0]).stack ∧
      (transact .pop (machine [0x15] 1 [0])).1.stack ≠ (machine [0x15] 1 [0]).stack ∧
      (transact (.execute [0x80]) (machine [] 0 [1])).1.stack ≠ (machine [] 0 [1]).stack ∧
      (transact .reset (machine [] 0 [1])).1.stack ≠ (machine [] 0 [1]).stack := by
  decide

theorem witness_FaultedUntilReset :
    (⟨[0x15], 0, [], some .stackUnderflow⟩ : State).fault ≠ none ∧
      (⟨[0x82], 0, [3, 1], some .indexOutOfRange⟩ : State).stack[1]? = some 1 := by
  decide

/-- The buffer exactly as long as the build holds, and one byte longer. -/
theorem witness_LoadCodeRule :
    status State.reset = .halted ∧
      ({ Config.build with codeMaxLen := some 2 } : Config).codeMaxLen = some 2 ∧
      ([0x60, 1] : List Byte).length ≤ 2 ∧ 2 < ([0x60, 1, 0x15] : List Byte).length ∧
      status (machine [0x15] 0 []) ≠ .halted := by
  decide

theorem witness_StepTransactionRule :
    status (machine [0x15] 0 []) = .running ∧ status (machine [0x15] 1 []) ≠ .running := by
  decide

/-- Halted and not, and the buffer exactly as long as the build holds and one byte longer. -/
theorem witness_ExecuteRunsToTheEnd :
    status State.reset = .halted ∧ status (machine [0x15] 0 []) ≠ .halted ∧
      tightBuild.codeMaxLen = some 1 ∧ ([0x15] : List Byte).length ≤ 1 ∧
      1 < ([0x60, 0x15] : List Byte).length := by
  decide

theorem witness_RunTakesAtMostRemainingBytes :
    view (nextOf (step (machine [0x60, 1] 0 []))) = (2, [1], none) := by
  decide

theorem witness_StackPortReads :
    (machine [] 0 [7]).stack = [7] ∧ State.reset.size = 0 ∧
      (machine [] 0 [7]).stack[0]? = some 7 ∧ (machine [] 0 [7]).size ≤ 1 := by
  decide

theorem witness_HostPopRule :
    status (machine [0x15] 0 []) ≠ .halted ∧ status State.reset = .halted ∧ State.reset.size = 0 ∧
      status (machine [0x15] 1 [7]) = .halted ∧ (machine [0x15] 1 [7]).stack = [7] := by
  decide

theorem witness_CompileAdjustEmitsEncoding : Config.build.Valid ∧ otherMap.Valid := by decide

theorem witness_CompileAppendsInOrder :
    ((0x90 : Byte).toNat : Int) + 112 > 255 ∧ ((0x00 : Byte).toNat : Int) + (-1) < 0 := by
  decide

/-- A build of capacity 1: Dup1 with no element, on a full stack, and Push1 short and on a full stack. -/
theorem witness_EveryBuildStepFollowsRules :
    ({ capacityTwo with stackCapacity := 1 } : Config).stackCapacity = (machine [0x80] 0 [7]).size ∧
      status (machine [0x80] 0 [7]) = .running ∧
      readByte (machine [0x80] 0 [7]) 0 = some 0x80 ∧ decodeByte capacityTwo 0x80 = .dup 1 ∧
      1 ≤ (machine [0x80] 0 [7]).size ∧ (machine [0x80] 0 []).size < 1 ∧
      decodeByte capacityTwo 0x60 = .push 1 ∧ (machine [0x60] 0 [7]).len - (0 + 1) < 1 ∧
      1 ≤ (machine [0x60, 9] 0 [7]).len - (0 + 1) ∧ decodeByte capacityTwo 0x90 = .swap 1 ∧
      (machine [0x90] 0 [7]).size ≤ 1 ∧ (machine [0x90] 0 [7, 8]).stack[1]? = some 8 ∧
      decodeByte capacityTwo 0x15 = .isZero ∧ decodeByte capacityTwo 0 = .invalid := by
  decide

theorem witness_EveryBuildRunsDecodedInstruction :
    (machine [0xe0, 1] 0 []).fault = none ∧
      (machine [0xe0, 1] 0 []).pc < (machine [0xe0, 1] 0 []).len ∧
      decodeWith otherMap (fetchBytes (machine [0xe0, 1] 0 [])) = .ok (.push1 [1], []) ∧
      decodeWith otherMap (fetchBytes (machine [0x60] 0 [])) = .error (.invalidOpcode 0x60) :=
  ⟨rfl, by decide, rfl, rfl⟩

theorem witness_PlacedWordRunsNext : decodeTableWord 8 0x9f = some .swap16 := by decide

end Sys2Proof.Tests
end

section
/-! PROOFS. The statements about the scope of the model (00_scope.md). -/

open Sys2Proof Sys2Proof.Machine

namespace Sys2Proof.Proofs

/-- Log entry 20: `transact` names the machine of the modelled build, by its definition. -/
theorem transact_eq_transactWith (cmd : HostCommand) (s : State) :
    transact cmd s = transactWith Config.build cmd s := rfl

/-- Settles O56: the 65 arms of `exec` reach the family routines of the build `Config.build`, so its
step is that build's step; the transactions are that build's by definition. -/
theorem stepIsTheModelledBuildsStep : Obligations.StepIsTheModelledBuildsStep := by
  intro i cmd s
  exact ⟨exec_eq_execWith i s, step_eq_stepWith s, transact_eq_transactWith cmd s⟩

end Sys2Proof.Proofs
end

section
/-! PROOFS. The statements about the state (10_state.md): what a step and a host transaction can do to
it, the invariant of R23 that both keep, and the registers the host reads. -/

open Sys2Proof Sys2Proof.Machine

namespace Sys2Proof.Proofs

/-! ## What a step can do -/

/-- R121: in a Running machine the bytes from `pc` on are the opcode byte and what follows it. -/
theorem fetchBytes_of_running {s : State} (h : status s = .running) :
    ∃ b, readByte s s.pc = some b ∧ fetchBytes s = b :: s.code.drop (s.pc + 1) := by
  have hpc : s.pc < s.code.length := ((status_eq_running_iff s).mp h).2
  exact ⟨s.code[s.pc], List.getElem?_eq_getElem hpc, List.drop_eq_getElem_cons hpc⟩

/-- A decoded instruction is the one its opcode byte and the following bytes name. -/
theorem ofDecoded_of_decodeWith_ok {c : Config} {b : Byte} {following rest : List Byte} {i : Instr}
    (h : decodeWith c (b :: following) = .ok (i, rest)) :
    Instr.ofDecoded (decodeByte c b) following = some i := by
  simp only [decodeWith] at h
  cases hd : Instr.ofDecoded (decodeByte c b) following with
  | some j => rw [hd] at h; cases h; rfl
  | none => rw [hd] at h; cases h

/-- R55: the instruction has the family and the modifier of its opcode byte, and a Push's operand is
what the buffer still holds of the next N bytes. -/
theorem ofDecoded_cases {d : Decoded} {following : List Byte} {i : Instr}
    (h : Instr.ofDecoded d following = some i) :
    (∃ n, d = .push n ∧ i.form = .push n (following.take n)) ∨
      (∃ n, d = .dup n ∧ i.form = .dup n) ∨ (∃ n, d = .swap n ∧ i.form = .swap n) ∨
      (d = .isZero ∧ i.form = .isZero) := by
  cases d with
  | push n => exact .inl ⟨n, rfl, (Laws.ofPush_eq_some_iff n _ i).mp h⟩
  | dup n => exact .inr (.inl ⟨n, rfl, (Laws.ofDup_eq_some_iff n i).mp h⟩)
  | swap n => exact .inr (.inr (.inl ⟨n, rfl, (Laws.ofSwap_eq_some_iff n i).mp h⟩))
  | isZero => cases h; exact .inr (.inr (.inr ⟨rfl, rfl⟩))
  | invalid => cases h

/-- An instruction takes a fault, or completes with the stack that its stack operation answers. -/
theorem execWith_cases (c : Config) (i : Instr) (s : State) :
    (∃ k, execWith c i s = .next (raiseFault k s)) ∨
      (∃ n S, stackOperation c i.form s.stack = (n, .ok S) ∧
        execWith c i s = .next (complete n S s)) := by
  rw [execWith_eq_finish]
  obtain ⟨S, hr, hf⟩ | ⟨k, -, hf⟩ := finish_cases (stackOperation c i.form s.stack).1
    (stackOperation c i.form s.stack).2 s
  · exact .inr ⟨_, S, Prod.ext rfl hr, hf⟩
  · exact .inl ⟨k, hf⟩

/-- R122, R123: a step is taken by a Running machine only; it takes a fault, or completes the
instruction that the byte at `pc` names. -/
theorem stepWith_next_cases {c : Config} {s t : State} (h : stepWith c s = .next t) :
    status s = .running ∧ ∃ b, readByte s s.pc = some b ∧
      ((∃ k, t = raiseFault k s) ∨
        (∃ i n S, Instr.ofDecoded (decodeByte c b) (s.code.drop (s.pc + 1)) = some i ∧
          stackOperation c i.form s.stack = (n, .ok S) ∧ t = complete n S s)) := by
  obtain ⟨-, e⟩ | ⟨hr, -, -, e⟩ | ⟨hr, i, rest, hd, e⟩ := stepWith_cases c s
  · rw [e] at h; cases h
  · obtain ⟨b, hb, -⟩ := fetchBytes_of_running hr
    rw [e] at h; cases h
    exact ⟨hr, b, hb, .inl ⟨_, rfl⟩⟩
  · obtain ⟨b, hb, hbytes⟩ := fetchBytes_of_running hr
    rw [hbytes] at hd
    refine ⟨hr, b, hb, ?_⟩
    rw [e] at h
    obtain ⟨k, he⟩ | ⟨n, S, hop, he⟩ := execWith_cases c i s
    · rw [he] at h; cases h
      exact .inl ⟨k, rfl⟩
    · rw [he] at h; cases h
      exact .inr ⟨i, n, S, ofDecoded_of_decodeWith_ok hd, hop, rfl⟩

/-! ## What a completing instruction does to `pc` and to the size of the stack -/

/-- R150: a Push that completes has all its operand bytes and room for one Word. -/
theorem stackOperation_push_ok {c : Config} {n m : Nat} {imm : List Byte} {S T : List Word}
    (h : stackOperation c (.push n imm) S = (m, .ok T)) :
    m = 1 + n ∧ n ≤ imm.length ∧ S.length ≠ c.stackCapacity ∧
      T = fromBytes (imm.take n) :: S := by
  by_cases hn : imm.length < n
  · simp [stackOperation, pushOperand, hn] at h
  · simp only [stackOperation, pushOperand, hn, if_false, Prod.mk.injEq] at h
    obtain ⟨rfl, h⟩ := h
    obtain ⟨-, he⟩ | ⟨hc, he⟩ := stackPush_cases c.stackCapacity (fromBytes (imm.take n)) S
    · rw [he] at h; cases h
    · rw [he] at h; cases h
      exact ⟨rfl, by omega, hc, rfl⟩

/-- R57, R15: an instruction that completes has the length its opcode byte tells, and all of its bytes
lie inside the buffer. -/
theorem decodedLength_of_completes {c : Config} {d : Decoded} {following : List Byte} {i : Instr}
    {n : Nat} {S T : List Word} (hi : Instr.ofDecoded d following = some i)
    (hop : stackOperation c i.form S = (n, .ok T)) :
    decodedLength d = some n ∧ n ≤ 1 + following.length := by
  obtain ⟨m, rfl, hf⟩ | ⟨m, rfl, hf⟩ | ⟨m, rfl, hf⟩ | ⟨rfl, hf⟩ := ofDecoded_cases hi <;>
    rw [hf] at hop
  · obtain ⟨rfl, hm, -, -⟩ := stackOperation_push_ok hop
    rw [List.length_take] at hm
    exact ⟨rfl, by omega⟩
  all_goals
    have hn : 1 = n := congrArg Prod.fst hop
    exact ⟨congrArg some hn, by omega⟩

/-- R12: the stack an instruction leaves is longer by one Word than a stack that was not full, or as
long as before. -/
theorem stackOperation_length {c : Config} {f : Form} {n : Nat} {S T : List Word}
    (h : stackOperation c f S = (n, .ok T)) :
    (T.length = S.length + 1 ∧ S.length ≠ c.stackCapacity) ∨ T.length = S.length := by
  cases f with
  | push m imm =>
    obtain ⟨-, -, hc, rfl⟩ := stackOperation_push_ok h
    exact .inl ⟨rfl, hc⟩
  | dup m =>
    have hd : stackDuplicate c.stackCapacity (m - 1) S = .ok T := congrArg Prod.snd h
    obtain ⟨-, he⟩ | ⟨-, -, he⟩ | ⟨v, -, hc, he⟩ := stackDuplicate_cases c.stackCapacity (m - 1) S <;>
      rw [he] at hd <;> cases hd
    exact .inl ⟨rfl, hc⟩
  | swap m => exact .inr (stackSwap_length (congrArg Prod.snd h))
  | isZero =>
    have hz : replaceTopByIsZero S = .ok T := congrArg Prod.snd h
    obtain ⟨-, he⟩ | ⟨a, rest, rfl, he⟩ := replaceTopByIsZero_cases S <;> rw [he] at hz <;> cases hz
    exact .inr rfl

/-- R57: the length that an opcode byte tells is 1 + N for `PushN` and 1 for every other valid byte. -/
theorem decodedLength_eq_some {d : Decoded} {n : Nat} (h : decodedLength d = some n) :
    (∃ m, d = .push m ∧ n = 1 + m) ∨ ((∀ m, d ≠ .push m) ∧ n = 1) := by
  cases d with
  | push m => cases h; exact .inl ⟨m, rfl, rfl⟩
  | invalid => cases h
  | _ => cases h; exact .inr ⟨by simp, rfl⟩

/-! ## What a transaction can do -/

/-- R14: a machine is Faulted exactly when a fault is latched. -/
theorem status_eq_faulted_iff (s : State) : status s = .faulted ↔ s.fault ≠ none := by
  unfold status
  cases s.fault with
  | some k => simp
  | none => by_cases h : s.pc < s.len <;> simp [h]

/-- R14: a machine is Halted exactly when no fault is latched and `pc` has reached the end. -/
theorem status_eq_halted_iff (s : State) :
    status s = .halted ↔ s.fault = none ∧ s.len ≤ s.pc := by
  unfold status
  cases s.fault with
  | some k => simp
  | none => by_cases h : s.pc < s.len <;> simp [h, ← Nat.not_lt]

/-- R126, U12: the acceptance rule of `LoadCode` and of `Execute`. -/
theorem loadAccepted_iff (c : Config) (bytes : List Byte) (s : State) :
    loadAccepted c bytes s = true ↔
      status s = .halted ∧ ∀ m, c.codeMaxLen = some m → bytes.length ≤ m := by
  unfold loadAccepted fitsCode
  cases c.codeMaxLen <;> simp

/-- What a transaction of the build `c` on the state `s` can do to it. -/
inductive Effect (c : Config) (s : State) : HostCommand → State → Prop where
  /-- A read, a use of the ALU port, a refusal or an error response. -/
  | kept (cmd : HostCommand) : Effect c s cmd s
  | reset : Effect c s .reset State.reset
  | load (bytes : List Byte) (h : loadAccepted c bytes s = true) :
    Effect c s (.loadCode bytes) (loadCode bytes s)
  | step (t : State) (h : stepWith c s = .next t) : Effect c s .step t
  | execute (bytes : List Byte) (h : loadAccepted c bytes s = true) :
    Effect c s (.execute bytes) (executeCode c bytes s)
  | pop (w : Word) (rest : List Word) (hs : status s = .halted) (hS : s.stack = w :: rest) :
    Effect c s .pop { s with stack := rest }

theorem effect_hostStep (c : Config) (s : State) : Effect c s .step (hostStep c s).1 := by
  unfold hostStep
  cases h : stepWith c s with
  | next t => exact .step t h
  | fault k => exact .kept _
  | refused k => exact .kept _

theorem effect_hostPop (c : Config) (s : State) : Effect c s .pop (hostPop s).1 := by
  unfold hostPop
  cases hs : status s with
  | halted =>
    obtain ⟨-, he⟩ | ⟨w, rest, hS, he⟩ := stackPop_cases s.stack
    · rw [he]; exact .kept _
    · rw [he]; exact .pop w rest hs hS
  | running => exact .kept _
  | faulted => exact .kept _

/-- R125 to R133: every transaction has one of these effects. -/
theorem effect_transactWith (c : Config) (cmd : HostCommand) (s : State) :
    Effect c s cmd (transactWith c cmd s).1 := by
  cases cmd with
  | reset => exact .reset
  | loadCode bytes =>
    by_cases h : loadAccepted c bytes s = true
    · simpa [transactWith, h] using Effect.load bytes h
    · simpa [transactWith, h] using Effect.kept (.loadCode bytes)
  | step => exact effect_hostStep c s
  | execute bytes =>
    by_cases h : loadAccepted c bytes s = true
    · simpa [transactWith, h] using Effect.execute bytes h
    · simpa [transactWith, h] using Effect.kept (.execute bytes)
  | pop => exact effect_hostPop c s
  | readRegister number =>
    simp only [transactWith]
    split <;> exact .kept _
  | alu op a b =>
    simp only [transactWith]
    split <;> exact .kept _
  | readSize | readTop | readElementAt | readStatus | readFault | readPc | readLen => exact .kept _

/-- Steps keep what one step keeps. -/
theorem runSteps_keeps {c : Config} {P : State → Prop}
    (hstep : ∀ s t, P s → stepWith c s = .next t → P t) (limit : Nat) {s : State} (h : P s) :
    P (runSteps c limit s) := by
  induction limit generalizing s with
  | zero => exact h
  | succ n ih =>
    unfold runSteps
    cases hs : stepWith c s with
    | next t => exact ih (hstep s t h hs)
    | fault k => exact h
    | refused k => exact h

/-- A property that holds at reset and that a step, an accepted load and a `Pop` in Halted keep is
kept by every transaction. -/
theorem transactWith_keeps {c : Config} {P : State → Prop} (hreset : P State.reset)
    (hstep : ∀ s t, P s → stepWith c s = .next t → P t)
    (hload : ∀ bytes s, P s → loadAccepted c bytes s = true → P (loadCode bytes s))
    (hpop : ∀ s w rest, P s → status s = .halted → s.stack = w :: rest →
      P { s with stack := rest })
    (cmd : HostCommand) (s : State) (h : P s) : P (transactWith c cmd s).1 := by
  have he := effect_transactWith c cmd s
  generalize (transactWith c cmd s).1 = t at he ⊢
  cases he with
  | kept => exact h
  | reset => exact hreset
  | load bytes ha => exact hload bytes s h ha
  | step t ht => exact hstep s t h ht
  | execute bytes ha => exact runSteps_keeps hstep bytes.length (hload bytes s h ha)
  | pop w rest hs hS => exact hpop s w rest h hs hS

/-- What holds at reset and is kept by every transaction holds in every reachable state. -/
theorem reachable_induction {c : Config} {P : State → Prop} (hreset : P State.reset)
    (hkeep : ∀ cmd s, P s → P (transactWith c cmd s).1) {s : State} (h : Reachable c s) : P s := by
  induction h with
  | reset => exact hreset
  | transact cmd _ ih => exact hkeep cmd _ ih

/-! ## The invariant (R23) -/

/-- A fault latched by a step leaves `pc` at the opcode byte that the Running machine fetched. -/
theorem stateInvOf_raiseFault {c : Config} {s : State} (k : Fault) (h : StateInvOf c s)
    (hpc : s.pc < s.len) : StateInvOf c (raiseFault k s) :=
  ⟨h.pc_le, h.size_le, h.len_fits, fun _ => hpc⟩

/-- Completing keeps the invariant when the instruction ends inside the buffer and its stack fits. -/
theorem stateInvOf_complete {c : Config} {s : State} {n : Nat} {S : List Word}
    (h : StateInvOf c s) (hfault : s.fault = none) (hpc : s.pc + n ≤ s.len)
    (hS : S.length ≤ c.stackCapacity) : StateInvOf c (complete n S s) :=
  ⟨hpc, hS, h.len_fits, fun hf => absurd hfault hf⟩

theorem stepWith_keeps_stateInvOf {c : Config} {s t : State} (h : StateInvOf c s)
    (ht : stepWith c s = .next t) : StateInvOf c t := by
  obtain ⟨hr, b, -, ⟨k, rfl⟩ | ⟨i, n, S, hi, hop, rfl⟩⟩ := stepWith_next_cases ht <;>
    obtain ⟨hfault, hpc⟩ := (status_eq_running_iff s).mp hr
  · exact stateInvOf_raiseFault k h hpc
  · have hn : n ≤ 1 + (s.len - (s.pc + 1)) := by
      simpa [State.len] using (decodedLength_of_completes hi hop).2
    have hsize : s.stack.length ≤ c.stackCapacity := h.size_le
    have hS := stackOperation_length hop
    exact stateInvOf_complete h hfault (by omega) (by omega)

theorem loadCode_keeps_stateInvOf {c : Config} {bytes : List Byte} {s : State}
    (h : StateInvOf c s) (ha : loadAccepted c bytes s = true) : StateInvOf c (loadCode bytes s) := by
  obtain ⟨hs, hfits⟩ := (loadAccepted_iff c bytes s).mp ha
  have hfault := ((status_eq_halted_iff s).mp hs).1
  exact ⟨Nat.zero_le _, h.size_le, hfits, fun hf => absurd hfault hf⟩

/-- R16: popping leaves `pc`, the buffer and the latch, and the stack only shrinks. -/
theorem pop_keeps_stateInvOf {c : Config} {s : State} {w : Word} {rest : List Word}
    (h : StateInvOf c s) (hS : s.stack = w :: rest) : StateInvOf c { s with stack := rest } := by
  have hsize := h.size_le
  simp only [State.size, hS, List.length_cons] at hsize
  exact ⟨h.pc_le, Nat.le_of_succ_le hsize, h.len_fits, h.fault_pc⟩

/-! ## The obligations -/

/-- Settles O37: everything is 0 or empty after reset (R270). -/
theorem invHoldsAtReset : Obligations.InvHoldsAtReset :=
  fun _ => ⟨Nat.le_refl 0, Nat.zero_le _, fun _ _ => Nat.zero_le _, fun h => absurd rfl h⟩

/-- Settles O38, by what a step can do: the fault is latched at the fetched byte, and a completing
instruction ends inside the buffer on a stack that had room. -/
theorem stepKeepsInv : Obligations.StepKeepsInv :=
  ⟨fun s _ h ht => stepWith_keeps_stateInvOf h (step_eq_stepWith s ▸ ht),
    fun _ _ _ h ht => stepWith_keeps_stateInvOf h ht⟩

/-- Settles O39: a step, an accepted load and a Pop keep the invariant, so every transaction does, and
it holds in every reachable state. -/
theorem transactionsKeepInv : Obligations.TransactionsKeepInv := by
  intro c
  have hkeep : ∀ cmd s, StateInvOf c s → StateInvOf c (transactWith c cmd s).1 :=
    transactWith_keeps (invHoldsAtReset c) (fun _ _ => stepWith_keeps_stateInvOf)
      (fun _ _ => loadCode_keeps_stateInvOf) (fun _ _ _ h _ => pop_keeps_stateInvOf h)
  exact ⟨hkeep, fun s => reachable_induction (invHoldsAtReset c) hkeep⟩

/-- Settles O36: a fault writes the latch only, and a completing instruction moves `pc` by the length
its opcode byte tells. -/
theorem pcAdvancesByLength : Obligations.PcAdvancesByLength := by
  refine ⟨rfl, fun s t ht => ?_⟩
  rw [step_eq_stepWith] at ht
  obtain ⟨hr, b, hb, ⟨k, rfl⟩ | ⟨i, n, S, hi, hop, rfl⟩⟩ := stepWith_next_cases ht <;>
    refine ⟨b, hb, ?_⟩
  · simp
  · have hfault := ((status_eq_running_iff s).mp hr).1
    refine ⟨fun _ => ?_, fun hf => absurd hfault hf⟩
    obtain ⟨m, hd, rfl⟩ | ⟨hd, rfl⟩ := decodedLength_eq_some (decodedLength_of_completes hi hop).1
    · exact .inl ⟨m, hd, rfl⟩
    · exact .inr ⟨hd, rfl⟩

/-- Settles O42, by the effects of a transaction: a load keeps the stack, and a step is taken when
Running only. -/
theorem stackChangedOnlyBy : Obligations.StackChangedOnlyBy := by
  intro c cmd s
  have he := effect_transactWith c cmd s
  generalize (transactWith c cmd s).1 = t at he ⊢
  cases he with
  | kept => exact fun h => absurd rfl h
  | reset => exact fun _ => .inl rfl
  | load bytes ha => exact fun h => absurd rfl h
  | step t ht => exact fun _ => .inr (.inl ⟨rfl, (stepWith_next_cases ht).1⟩)
  | execute bytes ha =>
    exact fun _ => .inr (.inr (.inl ⟨⟨bytes, rfl⟩, ((loadAccepted_iff c bytes s).mp ha).1⟩))
  | pop w rest hs hS => exact fun _ => .inr (.inr (.inr ⟨rfl, hs⟩))

/-- R19: the codes of `status`, each exactly for its value. -/
theorem statusCode_spec (v : Status) :
    statusCode v ≤ 2 ∧ (statusCode v = 0 ↔ v = .halted) ∧ (statusCode v = 1 ↔ v = .running) := by
  cases v <;> simp [statusCode]

/-- R18: the codes of the fault latch, each exactly for its content. -/
theorem faultCode_spec (k : Option Fault) :
    faultCode k ≤ 5 ∧ (faultCode k = 0 ↔ k = none) ∧
      (faultCode k = 1 ↔ k = some .stackUnderflow) ∧ (faultCode k = 2 ↔ k = some .stackOverflow) ∧
      (faultCode k = 3 ↔ k = some .indexOutOfRange) ∧
      (faultCode k = 4 ↔ k = some .truncatedOperand) ∧
      (faultCode k = 5 ↔ k = some .invalidOpcode) := by
  cases k with
  | none => simp [faultCode]
  | some k => cases k <;> simp [faultCode]

/-- Settles O51: the definition of `status`, the reads by their rules, and the two code tables. -/
theorem hostRegistersRead : Obligations.HostRegistersRead := fun _ s =>
  ⟨status_eq_faulted_iff s, status_eq_running_iff s, status_eq_halted_iff s, rfl, rfl, rfl, rfl,
    ⟨statusCode (status s), rfl, statusCode_spec (status s)⟩,
    ⟨faultCode s.fault, rfl, faultCode_spec s.fault⟩, rfl, rfl, rfl⟩

end Sys2Proof.Proofs
end

section
/-! PROOFS. The statements about the memory (20_memory.md): what an instruction leaves unchanged, and
what writes the code space. -/

open Sys2Proof Sys2Proof.Machine

namespace Sys2Proof.Proofs

/-! ## What a stack operation leaves unchanged (R108) -/

/-- R105: a duplicate that succeeds puts the element at the depth it names on the old stack. -/
theorem stackDuplicate_ok {cap i : Nat} {S T : List Word} (h : stackDuplicate cap i S = .ok T) :
    ∃ v, S[i]? = some v ∧ S.length ≠ cap ∧ T = v :: S := by
  obtain ⟨-, he⟩ | ⟨-, -, he⟩ | ⟨v, hv, hc, he⟩ := stackDuplicate_cases cap i S <;>
    rw [he] at h <;> cases h
  exact ⟨v, hv, hc, rfl⟩

/-- R106: an exchange leaves every depth but 0 and the one it names. -/
theorem stackSwap_getElem?_of_ne {i j : Nat} {S T : List Word} (h : stackSwap i S = .ok T)
    (h0 : j ≠ 0) (hi : j ≠ i) : T[j]? = S[j]? := by
  obtain ⟨-, he⟩ | ⟨a, b, -, -, he⟩ := stackSwap_cases i S <;> rw [he] at h <;> cases h
  rw [List.getElem?_set_ne hi.symm, List.getElem?_set_ne h0.symm]

/-- R230: on a stack that is not empty the test replaces the top and leaves the rest. -/
theorem replaceTopByIsZero_ok {S T : List Word} (h : replaceTopByIsZero S = .ok T) :
    ∃ a rest, S = a :: rest ∧ T = isZeroResult a :: rest := by
  obtain ⟨-, he⟩ | ⟨a, rest, hS, he⟩ := replaceTopByIsZero_cases S <;> rw [he] at h <;> cases h
  exact ⟨a, rest, hS, rfl⟩

/-! ## What an instruction and a run leave unchanged -/

/-- The next state of an instruction: a fault is latched, or the instruction completes with the stack
that its stack operation answers. -/
theorem exec_next_cases {i : Instr} {s t : State} (h : exec i s = .next t) :
    (∃ k, t = raiseFault k s) ∨
      (∃ n T, stackOperation Config.build i.form s.stack = (n, .ok T) ∧ t = complete n T s) := by
  rw [exec_eq_execWith] at h
  obtain ⟨k, he⟩ | ⟨n, T, hop, he⟩ := execWith_cases Config.build i s <;> rw [he] at h <;> cases h
  · exact .inl ⟨k, rfl⟩
  · exact .inr ⟨n, T, hop, rfl⟩

/-- R33: a step does not write the code space. -/
theorem stepWith_code {c : Config} {s t : State} (h : stepWith c s = .next t) :
    t.code = s.code := by
  obtain ⟨-, -, -, ⟨k, rfl⟩ | ⟨i, n, S, -, -, rfl⟩⟩ := stepWith_next_cases h
  · exact raiseFault_code k s
  · exact complete_code n S s

/-- R128: after an `Execute` the code space holds the bytes it loaded, since its steps keep them. -/
theorem executeCode_code (c : Config) (bytes : List Byte) (s : State) :
    (executeCode c bytes s).code = bytes :=
  runSteps_keeps (P := fun t => t.code = bytes) (fun _ _ hc ht => (stepWith_code ht).trans hc)
    bytes.length (loadCode_code bytes s)

/-! ## The obligations -/

/-- Settles O33: a fault writes the latch only, and an instruction that completes writes `pc` and the
stack, whose elements its stack operation keeps by the rules above. -/
theorem instructionFrame : Obligations.InstructionFrame := by
  intro i s t h
  obtain ⟨k, rfl⟩ | ⟨n, T, hop, rfl⟩ := exec_next_cases h
  · exact ⟨fun _ => rfl, rfl, .inl ⟨k, rfl⟩⟩
  refine ⟨fun _ => rfl, rfl, .inr ⟨rfl, ?_⟩⟩
  cases hf : i.form with rw [hf] at hop
  | push m imm =>
    obtain ⟨-, -, -, rfl⟩ := stackOperation_push_ok hop
    exact ⟨rfl, fun _ => rfl⟩
  | dup m =>
    obtain ⟨v, -, -, rfl⟩ := stackDuplicate_ok (congrArg Prod.snd hop)
    exact ⟨rfl, fun _ => rfl⟩
  | swap m =>
    have hswap : stackSwap m s.stack = .ok T := congrArg Prod.snd hop
    exact ⟨stackSwap_length hswap, fun _ => stackSwap_getElem?_of_ne hswap⟩
  | isZero =>
    obtain ⟨a, rest, hS, rfl⟩ := replaceTopByIsZero_ok (congrArg Prod.snd hop)
    simp only [State.size, complete_stack, hS]
    exact ⟨rfl, fun j hj => by rw [List.getElem?_cons, List.getElem?_cons, if_neg hj, if_neg hj]⟩

/-- Settles O41, by the effects of a transaction: beside Reset only an accepted load writes the code
space, and the steps of an `Execute` leave what it loaded. -/
theorem codeWrittenOnlyByLoad : Obligations.CodeWrittenOnlyByLoad := by
  refine ⟨fun s t ht => stepWith_code (step_eq_stepWith s ▸ ht), fun c cmd s => ?_⟩
  have he := effect_transactWith c cmd s
  generalize (transactWith c cmd s).1 = t at he ⊢
  cases he with
  | kept => exact fun h => absurd rfl h
  | reset => exact fun _ => .inl rfl
  | load bytes ha =>
    exact fun _ => .inr ⟨((loadAccepted_iff c bytes s).mp ha).1, bytes, .inl rfl, rfl⟩
  | step t ht => exact fun h => absurd (stepWith_code ht) h
  | execute bytes ha =>
    exact fun _ => .inr
      ⟨((loadAccepted_iff c bytes s).mp ha).1, bytes, .inr rfl, executeCode_code c bytes s⟩
  | pop w rest hs hS => exact fun h => absurd rfl h

end Sys2Proof.Proofs
end

section
/-! PROOFS. The statements about the encoding (30_encoding.md): the decoder and the encoder are
inverse for every opcode map that satisfies R60, and what the assembler appends. -/

open Sys2Proof Sys2Proof.Machine

namespace Sys2Proof.Proofs

/-! ## The opcode byte (R53, R55) -/

/-- R55: each answer of the decoder comes from a byte in that answer's range, and `invalid` from a
byte in none. -/
theorem decodeByte_cases (c : Config) (b : Byte) :
    (∃ k, k ≤ 31 ∧ b.toNat = c.opPush1.toNat + k ∧ decodeByte c b = .push (k + 1)) ∨
      (∃ k, k ≤ 15 ∧ b.toNat = c.opDup1.toNat + k ∧ decodeByte c b = .dup (k + 1)) ∨
      (∃ k, k ≤ 15 ∧ b.toNat = c.opSwap1.toNat + k ∧ decodeByte c b = .swap (k + 1)) ∨
      (b.toNat = c.opIsZero.toNat ∧ decodeByte c b = .isZero) ∨
      (¬ (c.opPush1.toNat ≤ b.toNat ∧ b.toNat ≤ c.opPush1.toNat + 31) ∧
        ¬ (c.opDup1.toNat ≤ b.toNat ∧ b.toNat ≤ c.opDup1.toNat + 15) ∧
        ¬ (c.opSwap1.toNat ≤ b.toNat ∧ b.toNat ≤ c.opSwap1.toNat + 15) ∧
        b.toNat ≠ c.opIsZero.toNat ∧ decodeByte c b = .invalid) := by
  unfold decodeByte
  split_ifs with hp hd hs hz
  · exact .inl ⟨b.toNat - c.opPush1.toNat, by omega, by omega, rfl⟩
  · exact .inr (.inl ⟨b.toNat - c.opDup1.toNat, by omega, by omega, rfl⟩)
  · exact .inr (.inr (.inl ⟨b.toNat - c.opSwap1.toNat, by omega, by omega, rfl⟩))
  · exact .inr (.inr (.inr (.inl ⟨congrArg BitVec.toNat hz, rfl⟩)))
  · exact .inr (.inr (.inr (.inr ⟨hp, hd, hs, fun h => hz (BitVec.eq_of_toNat_eq h), rfl⟩)))

/-- Settles O5: the decoder's answer comes from a byte in its range, and by R60 that byte lies in no
other range. -/
theorem decodeByteByRange : Obligations.DecodeByteByRange := by
  intro c b hc
  simp only [ne_eq, ← BitVec.toNat_inj]
  obtain ⟨k, hk, hb, he⟩ | ⟨k, hk, hb, he⟩ | ⟨k, hk, hb, he⟩ | ⟨hb, he⟩ | ⟨hp, hd, hs, hz, he⟩ :=
    decodeByte_cases c b
  all_goals
    simp only [he, Decoded.push.injEq, Decoded.dup.injEq, Decoded.swap.injEq, reduceCtorEq,
      false_iff, true_iff]
    refine ⟨fun n => ?_, fun n => ?_, fun n => ?_, ?_, ?_⟩ <;> omega

/-- R53: inside a byte the sum of the base and the offset does not wrap. -/
theorem familyOpcode_toNat {base : Byte} {n : Nat} (h : base.toNat + (n - 1) ≤ 255) :
    (familyOpcode base n).toNat = base.toNat + (n - 1) := by
  rw [familyOpcode, BitVec.toNat_ofNat, Nat.mod_eq_of_lt (by omega)]

/-- R55: the byte at the place of the modifier N in a range is the opcode byte of R53. -/
theorem atPlace_iff_eq_familyOpcode {base : Byte} {n max : Nat} (h1 : 1 ≤ n) (hmax : n ≤ max)
    (h : base.toNat + (n - 1) ≤ 255) (b : Byte) :
    (1 ≤ n ∧ n ≤ max ∧ b.toNat = base.toNat + (n - 1)) ↔ b = familyOpcode base n := by
  rw [and_iff_right h1, and_iff_right hmax, ← BitVec.toNat_inj, familyOpcode_toNat h]

/-- R53, R60: the base of an instruction's family, and its offset, add up to a byte. -/
theorem familyOpcode_fits {c : Config} (hc : c.Valid) (i : Instr) :
    match i.form with
    | .push n _ => c.opPush1.toNat + (n - 1) ≤ 255
    | .dup n => c.opDup1.toNat + (n - 1) ≤ 255
    | .swap n => c.opSwap1.toNat + (n - 1) ≤ 255
    | .isZero => True := by
  have hr := form_range i
  cases hf : i.form with simp only [hf, pushMax, dupMax, swapMax] at hr ⊢
  | push | dup | swap => omega

/-- What R55's decoder must answer for the opcode byte of a form: its family and modifier. -/
def decodedOf (f : Form) : Decoded :=
  match f with
  | .push n _ => .push n
  | .dup n => .dup n
  | .swap n => .swap n
  | .isZero => .isZero

/-- R55 with R53: a byte decodes as the family and modifier of an instruction exactly when it is the
instruction's opcode byte. -/
theorem decodeByte_eq_decodedOf_iff {c : Config} (hc : c.Valid) (b : Byte) (i : Instr) :
    decodeByte c b = decodedOf i.form ↔ b = opcodeOf c i.form := by
  obtain ⟨hpush, hdup, hswap, hisZero, -⟩ := decodeByteByRange c b hc
  have hr := form_range i
  have hfits := familyOpcode_fits hc i
  cases hf : i.form with rw [hf] at hr hfits
  | push n imm => exact (hpush n).trans (atPlace_iff_eq_familyOpcode hr.1 hr.2 hfits b)
  | dup n => exact (hdup n).trans (atPlace_iff_eq_familyOpcode hr.1 hr.2 hfits b)
  | swap n => exact (hswap n).trans (atPlace_iff_eq_familyOpcode hr.1 hr.2 hfits b)
  | isZero => exact hisZero

/-- Settles O4: the sum of base and offset does not wrap, and the byte decodes as its
instruction. -/
theorem opcodeIsBasePlusOffset : Obligations.OpcodeIsBasePlusOffset := by
  intro c i hc
  have hr := form_range i
  have hfits := familyOpcode_fits hc i
  have hd := (decodeByte_eq_decodedOf_iff hc _ i).mpr rfl
  cases hf : i.form with rw [hf] at hr hfits hd
  | push n imm => exact ⟨hr.1, hr.2, familyOpcode_toNat hfits, hd⟩
  | dup n => exact ⟨hr.1, hr.2, familyOpcode_toNat hfits, hd⟩
  | swap n => exact ⟨hr.1, hr.2, familyOpcode_toNat hfits, hd⟩
  | isZero => exact ⟨rfl, hd⟩

/-- Settles O6: none of the ranges of R55, with the bases of the default map. -/
theorem defaultInvalidBytes : Obligations.DefaultInvalidBytes := by
  intro b
  obtain ⟨-, -, -, -, hinvalid⟩ := decodeByteByRange Config.build b Laws.build_valid
  rw [hinvalid, ne_eq, ← BitVec.toNat_inj]
  simp only [Config.build, BitVec.reduceToNat]
  omega

/-! ## The bytes of an instruction (R50, R52) -/

/-- R52: a well-formed instruction carries as many operand bytes as its opcode byte announces. -/
theorem wellFormed_iff (i : Instr) :
    i.WellFormed ↔ (operandsOf i.form).length = operandLength (decodedOf i.form) := by
  unfold Instr.WellFormed Instr.wf
  cases i.form <;> simp [operandsOf, decodedOf, operandLength]

/-- R52: only a Push can carry another number of operand bytes than its opcode byte announces. -/
theorem form_eq_push_of_operands_short {i : Instr}
    (h : (operandsOf i.form).length < operandLength (decodedOf i.form)) :
    ∃ n imm, i.form = .push n imm ∧ imm.length < n := by
  cases hf : i.form with rw [hf] at h
  | push n imm => exact ⟨n, imm, rfl, h⟩
  | dup | swap | isZero => exact absurd h (Nat.not_lt_zero _)

theorem eq_isZero_of_form {i : Instr} (h : i.form = .isZero) : i = .isZero := by
  cases i <;> simp [Instr.form] at h ⊢

/-- The decoder's constructor tables name the one instruction with that family, modifier and
operand. -/
theorem ofDecoded_eq_some_iff (d : Decoded) (following : List Byte) (i : Instr) :
    Instr.ofDecoded d following = some i ↔
      d = decodedOf i.form ∧ operandsOf i.form = following.take (operandLength d) := by
  constructor
  · intro h
    obtain ⟨n, rfl, hf⟩ | ⟨n, rfl, hf⟩ | ⟨n, rfl, hf⟩ | ⟨rfl, hf⟩ := ofDecoded_cases h <;>
      rw [hf] <;> exact ⟨rfl, rfl⟩
  · rintro ⟨rfl, ho⟩
    cases hf : i.form with rw [hf] at ho
    | push n imm =>
      have himm : imm = following.take n := ho
      exact (Laws.ofPush_eq_some_iff n _ i).mpr (himm ▸ hf)
    | dup n => exact (Laws.ofDup_eq_some_iff n i).mpr hf
    | swap n => exact (Laws.ofSwap_eq_some_iff n i).mpr hf
    | isZero => exact congrArg some (eq_isZero_of_form hf).symm

theorem decodeWith_cons_eq_ok_iff (c : Config) (b : Byte) (following rest : List Byte) (i : Instr) :
    decodeWith c (b :: following) = .ok (i, rest) ↔
      Instr.ofDecoded (decodeByte c b) following = some i ∧
        rest = following.drop (operandLength (decodeByte c b)) := by
  rw [decodeWith]
  cases Instr.ofDecoded (decodeByte c b) following <;> simp [eq_comm]

/-- What the decoder reads, for a map that satisfies R60: the instruction's opcode byte, its operand
bytes as far as the buffer holds them, and the bytes after them. -/
theorem decodeWith_eq_ok_iff {c : Config} (hc : c.Valid) (bytes rest : List Byte) (i : Instr) :
    decodeWith c bytes = .ok (i, rest) ↔
      ∃ following, bytes = opcodeOf c i.form :: following ∧
        operandsOf i.form = following.take (operandLength (decodedOf i.form)) ∧
        rest = following.drop (operandLength (decodedOf i.form)) := by
  cases bytes with
  | nil => simp [decodeWith]
  | cons b following =>
    rw [decodeWith_cons_eq_ok_iff, ofDecoded_eq_some_iff]
    constructor
    · rintro ⟨⟨hd, ho⟩, hrest⟩
      rw [hd] at ho hrest
      exact ⟨following, by rw [(decodeByte_eq_decodedOf_iff hc b i).mp hd], ho, hrest⟩
    · rintro ⟨_, hbytes, ho, hrest⟩
      obtain ⟨hb, rfl⟩ := List.cons.inj hbytes
      have hd := (decodeByte_eq_decodedOf_iff hc b i).mpr hb
      rw [hd]
      exact ⟨⟨rfl, ho⟩, hrest⟩

/-- Settles O1: the opcode byte announces the operand bytes that a well-formed instruction
carries. -/
theorem decodeReturnsEncodedInstruction : Obligations.DecodeReturnsEncodedInstruction := by
  intro c i following hc hwf
  have hlen := (wellFormed_iff i).mp hwf
  exact (decodeWith_eq_ok_iff hc _ _ i).mpr
    ⟨operandsOf i.form ++ following, rfl, (List.take_left' hlen).symm, (List.drop_left' hlen).symm⟩

/-- Settles O2: the operand bytes and the bytes left are the two parts of what follows the opcode
byte, and a first part that is short leaves no second part. -/
theorem encodeRebuildsDecodedBytes : Obligations.EncodeRebuildsDecodedBytes := by
  intro c bytes rest i hc h
  obtain ⟨following, rfl, ho, rfl⟩ := (decodeWith_eq_ok_iff hc _ _ i).mp h
  have hlen := congrArg List.length ho
  rw [List.length_take] at hlen
  refine ⟨by rw [encodeWith, ho, List.cons_append, List.take_append_drop], ?_⟩
  by_cases hall : operandLength (decodedOf i.form) ≤ following.length
  · exact .inl ((wellFormed_iff i).mpr (by omega))
  · exact .inr ⟨List.drop_eq_nil_of_le (by omega), form_eq_push_of_operands_short (by omega)⟩

/-- Settles O3: each word is run through the decoder. -/
theorem writtenWordsDecode : Obligations.WrittenWordsDecode :=
  ⟨rfl, rfl, rfl, rfl, rfl, rfl, rfl, rfl, rfl⟩

/-! ## The assembler (R61 to R66) -/

/-- R66: a literal is refused outside 0..255, and a byte array never. -/
theorem asmOperandBytes_eq_some_iff (o : AsmOperand) (bs : List Byte) :
    asmOperandBytes o = some bs ↔
      (∀ v, .literal v = o → 0 ≤ v ∧ v ≤ 255) ∧ bs = asmOperandLayout o := by
  cases o <;> simp [asmOperandBytes, eq_comm]

/-- R62: the operands are laid out in the order given, unless one of them is refused. -/
theorem asmOperandsBytes_eq_some_iff (operands : List AsmOperand) (bs : List Byte) :
    asmOperandsBytes operands = some bs ↔
      (∀ v, AsmOperand.literal v ∈ operands → 0 ≤ v ∧ v ≤ 255) ∧
        bs = operands.flatMap asmOperandLayout := by
  induction operands generalizing bs with
  | nil => simp [asmOperandsBytes, eq_comm]
  | cons o rest ih =>
    have hcons : asmOperandsBytes (o :: rest) = some bs ↔ ∃ first, asmOperandBytes o = some first ∧
        ∃ more, asmOperandsBytes rest = some more ∧ bs = first ++ more := by
      rw [asmOperandsBytes]
      cases asmOperandBytes o <;> cases asmOperandsBytes rest <;> simp [eq_comm]
    simp only [hcons, asmOperandBytes_eq_some_iff, ih, List.mem_cons, List.flatMap_cons]
    constructor
    · rintro ⟨_, ⟨ho, rfl⟩, _, ⟨hrest, rfl⟩, rfl⟩
      exact ⟨fun v hv => hv.elim (ho v) (hrest v), rfl⟩
    · rintro ⟨hall, rfl⟩
      exact ⟨_, ⟨fun v hv => hall v (.inl hv), rfl⟩, _, ⟨fun v hv => hall v (.inr hv), rfl⟩, rfl⟩

/-- R62: `compile` answers the old buffer, the opcode byte and the operands. -/
theorem asmCompile_eq_some_iff (op : Byte) (operands : List AsmOperand) (bytes buffer : List Byte) :
    asmCompile op operands buffer = some bytes ↔
      (∀ v, AsmOperand.literal v ∈ operands → 0 ≤ v ∧ v ≤ 255) ∧
        bytes = buffer ++ op :: operands.flatMap asmOperandLayout := by
  have hcompile : asmCompile op operands buffer = some bytes ↔
      ∃ bs, asmOperandsBytes operands = some bs ∧ bytes = buffer ++ op :: bs := by
    rw [asmCompile]
    cases asmOperandsBytes operands <;> simp [eq_comm]
  simp only [hcompile, asmOperandsBytes_eq_some_iff]
  exact ⟨fun ⟨_, ⟨hall, hbs⟩, h⟩ => ⟨hall, hbs ▸ h⟩, fun ⟨hall, h⟩ => ⟨_, ⟨hall, rfl⟩, h⟩⟩

/-- Settles O54: the layout of `compile`, and the range test of `compileAdjust`. -/
theorem compileAppendsInOrder : Obligations.CompileAppendsInOrder :=
  ⟨asmCompile_eq_some_iff, fun _ _ _ _ h => if_neg (by omega)⟩

/-- R63: with the offset N - 1 `compileAdjust` is `compile` of the opcode byte of R53. -/
theorem asmCompileAdjust_eq_asmCompile {base : Byte} {n : Nat} (hn : 1 ≤ n)
    (h : base.toNat + (n - 1) ≤ 255) (operands : List AsmOperand) (buffer : List Byte) :
    asmCompileAdjust base ((n : Int) - 1) operands buffer =
      asmCompile (familyOpcode base n) operands buffer := by
  have hsum : (base.toNat : Int) + ((n : Int) - 1) = ((base.toNat + (n - 1) : Nat) : Int) := by
    omega
  rw [asmCompileAdjust, hsum, if_pos (by omega), Int.toNat_natCast, familyOpcode]

/-- Settles O53: `compileAdjust` computes the opcode byte of R53, and `compile` appends the one
operand array after it. -/
theorem compileAdjustEmitsEncoding : Obligations.CompileAdjustEmitsEncoding := by
  intro c i buffer hc
  have hr := form_range i
  have hfits := familyOpcode_fits hc i
  unfold encodeWith
  cases hf : i.form with rw [hf] at hr hfits
  | push n imm =>
    simp only [asmCompileAdjust_eq_asmCompile hr.1 hfits]
    exact (asmCompile_eq_some_iff _ _ _ _).mpr
      ⟨by simp, by simp [opcodeOf, operandsOf, asmOperandLayout]⟩
  | dup n => exact asmCompileAdjust_eq_asmCompile hr.1 hfits [] buffer
  | swap n => exact asmCompileAdjust_eq_asmCompile hr.1 hfits [] buffer
  | isZero => rfl

end Sys2Proof.Proofs
end

section
/-! PROOFS. The statements about the Word arithmetic unit (40_word_alu.md): its operations are those of
`BitVec 256`, its two byte conversions are the base 256 digits of `Nat.ofDigits`, and its port. -/

open Sys2Proof Sys2Proof.Machine

namespace Sys2Proof.Proofs

/-! ## The operations as operations of `BitVec 256` (R81, R85 to R90) -/

@[simp] theorem toNat_wordOf (n : Nat) : (wordOf n).toNat = n % 2 ^ 256 := BitVec.toNat_ofNat n 256

@[simp] theorem wordOf_toNat (w : Word) : wordOf w.toNat = w :=
  (BitVec.ofNat_toNat 256 w).trans (BitVec.setWidth_eq w)

@[simp] theorem wordZero_eq : wordZero = 0 := rfl

@[simp] theorem wordOne_eq : wordOne = 1 := rfl

@[simp] theorem wordEquals_eq (a b : Word) : wordEquals a b = decide (a = b) :=
  beq_eq_decide a b

@[simp] theorem wordIsZero_eq (a : Word) : wordIsZero a = decide (a = 0) := beq_eq_decide a 0

@[simp] theorem wordAdd_eq (a b : Word) : wordAdd a b = a + b := rfl

@[simp] theorem wordSubtract_eq (a b : Word) : wordSubtract a b = a - b := by
  apply BitVec.eq_of_toNat_eq
  have hswap : 2 ^ 256 + a.toNat - b.toNat = 2 ^ 256 - b.toNat + a.toNat := by omega
  rw [wordSubtract, toNat_wordOf, BitVec.toNat_sub, hswap]

@[simp] theorem wordMultiply_eq (a b : Word) : wordMultiply a b = a * b := by
  apply BitVec.eq_of_toNat_eq
  rw [wordMultiply, toNat_wordOf, BitVec.toNat_mul]

theorem wordDivide_zero (c : Config) (a : Word) : wordDivide c a 0 = c.divByZeroResult := rfl

theorem wordDivide_eq (c : Config) (a : Word) {b : Word} (hb : b ≠ 0) :
    wordDivide c a b = a / b := by
  rw [wordDivide, wordIsZero_eq, decide_eq_false hb, if_neg Bool.false_ne_true, BitVec.udiv_def]
  rfl

/-! ## The laws of the arithmetic (R93) -/

theorem div_mul_add_mod_eq (a b : Word) : a / b * b + a % b = a := by
  calc a / b * b + a % b
      = wordOf (a.toNat / b.toNat * b.toNat + a.toNat % b.toNat) := by
        apply BitVec.eq_of_toNat_eq; simp
    _ = wordOf a.toNat := by rw [Nat.div_add_mod']
    _ = a := wordOf_toNat a

/-- R93: the remainder below a divisor other than Zero is `a % b`, and addition cancels. -/
theorem existsUnique_remainder (c : Config) (a : Word) {b : Word} (hb : b ≠ 0) :
    ∃! r : Word, r.toNat < b.toNat ∧ a = wordAdd (wordMultiply (wordDivide c a b) b) r := by
  have hpos : 0 < b.toNat := Nat.pos_of_ne_zero (BitVec.toNat_ne.mp hb)
  simp only [wordAdd_eq, wordMultiply_eq, wordDivide_eq c a hb]
  refine ⟨a % b, ⟨?_, (div_mul_add_mod_eq a b).symm⟩, fun r ⟨_, hr⟩ => ?_⟩
  · exact BitVec.toNat_umod ▸ Nat.mod_lt _ hpos
  · exact add_left_cancel (hr.symm.trans (div_mul_add_mod_eq a b).symm)

/-- Settles O9: the unit's operations are those of the commutative ring `BitVec 256`, and division
leaves the one remainder of `existsUnique_remainder`. -/
theorem wordArithmeticLaws : Obligations.WordArithmeticLaws := by
  intro c a b d
  have hdiv : b ≠ wordZero → _ := existsUnique_remainder c a (b := b)
  have heq : wordEquals a b = wordIsZero (wordSubtract a b) := by
    simp only [wordEquals_eq, wordIsZero_eq, wordSubtract_eq, sub_eq_zero]
  simp only [wordAdd_eq, wordSubtract_eq, wordMultiply_eq, wordZero_eq, wordOne_eq] at hdiv heq ⊢
  exact ⟨add_comm a b, add_assoc a b d, add_zero a, by rw [zero_sub, sub_eq_add_neg],
    add_sub_cancel_right a b, sub_self a, mul_comm a b, mul_add a b d, mul_one a, hdiv, heq⟩

/-! ## Big-endian values (R6, R83) -/

/-- R6: `be` reads the bytes as base 256 digits, the most significant first. -/
theorem be_eq_ofDigits (bytes : List Byte) :
    be bytes = Nat.ofDigits 256 (bytes.reverse.map BitVec.toNat) := by
  rw [be, List.foldl_eq_foldr_reverse, Nat.ofDigits_eq_foldr, List.foldr_map]
  simp only [Nat.cast_id, Nat.add_comm]

theorem be_append (front bytes : List Byte) :
    be (front ++ bytes) = be front * 256 ^ bytes.length + be bytes := by
  simp [be_eq_ofDigits, Nat.ofDigits_append]
  ring

theorem be_cons (b : Byte) (bytes : List Byte) :
    be (b :: bytes) = b.toNat * 256 ^ bytes.length + be bytes := by
  simpa [be] using be_append [b] bytes

theorem be_concat (bytes : List Byte) (b : Byte) : be (bytes ++ [b]) = 256 * be bytes + b.toNat := by
  simp [be]

theorem be_lt (bytes : List Byte) : be bytes < 256 ^ bytes.length := by
  have hdigit : ∀ d ∈ bytes.reverse.map BitVec.toNat, d < 256 := by
    simp only [List.mem_map]
    rintro _ ⟨b, -, rfl⟩
    exact b.isLt
  simpa [be_eq_ofDigits] using Nat.ofDigits_lt_base_pow_length (by decide) hdigit

/-- R6: `be` is the sum of the bytes, each at the weight of its place. -/
theorem be_eq_sum (bytes : List Byte) :
    be bytes = ∑ k : Fin bytes.length, bytes[k].toNat * 256 ^ (bytes.length - 1 - k.val) := by
  induction bytes with
  | nil => rfl
  | cons b bytes ih =>
    rw [be_cons, ih]
    simp [Fin.sum_univ_succ, Nat.sub_sub, Nat.add_comm]

/-- R83: only the low-order 32 bytes count in a Word. -/
theorem wordOf_be_append {bytes : List Byte} (front : List Byte) (h : bytes.length = wordBytes) :
    wordOf (be (front ++ bytes)) = wordOf (be bytes) := by
  apply BitVec.eq_of_toNat_eq
  have hweight : 256 ^ bytes.length = 2 ^ 256 := by rw [h]; rfl
  rw [be_append, hweight, toNat_wordOf, toNat_wordOf, Nat.mul_add_mod']

/-- R83: the bytes that `fromBytes` drops do not count modulo `2^256`. -/
theorem fromBytes_eq_wordOf_be (bytes : List Byte) : fromBytes bytes = wordOf (be bytes) := by
  obtain hshort | hlong := Nat.le_total bytes.length wordBytes
  · rw [fromBytes, Nat.sub_eq_zero_of_le hshort, List.drop_zero]
  · have hlen : (bytes.drop (bytes.length - wordBytes)).length = wordBytes := by
      rw [List.length_drop, Nat.sub_sub_self hlong]
    rw [fromBytes, ← wordOf_be_append (bytes.take (bytes.length - wordBytes)) hlen,
      List.take_append_drop]

theorem toNat_fromBytes {bytes : List Byte} (h : bytes.length ≤ 32) :
    (fromBytes bytes).toNat = be bytes := by
  have hlt : be bytes < 2 ^ 256 :=
    calc be bytes < 256 ^ bytes.length := be_lt bytes
      _ ≤ 256 ^ 32 := Nat.pow_le_pow_right (by decide) h
      _ = 2 ^ 256 := rfl
  rw [fromBytes_eq_wordOf_be, toNat_wordOf, Nat.mod_eq_of_lt hlt]

/-- Settles O10: up to 32 bytes the value fits a Word, and every sequence gives its value modulo
`2^256`, to which neither the bytes before the last 32 nor a leading zero byte contributes. -/
theorem fromBytesIsBigEndian : Obligations.FromBytesIsBigEndian := by
  refine ⟨fun bytes h => ?short, fun front bytes h => ?long, rfl, fun bytes => ?leadingZero⟩
  case short => rw [toNat_fromBytes h, be_eq_sum]
  case long => simp only [fromBytes_eq_wordOf_be, wordOf_be_append front h]
  case leadingZero => simp [fromBytes_eq_wordOf_be, be_cons]

/-! ## The canonical form (R84) -/

/-- R84: the byte that starts at bit `i`. -/
theorem toNat_extractByte (w : Word) (i : Nat) :
    (w.extractLsb' i 8).toNat = w.toNat / 2 ^ i % 256 := by
  rw [BitVec.extractLsb'_toNat, Nat.shiftRight_eq_div_pow]

@[simp] theorem length_toBytes (w : Word) : (toBytes w).length = 32 := by
  simp [toBytes, wordBytes]

/-- R84: the first `n` canonical bytes hold the Word without its low-order `256 - 8n` bits; the next
byte shifts them by eight and fills in. -/
theorem be_map_extractByte (w : Word) {n : Nat} (hn : n ≤ 32) :
    be ((List.range n).map fun k => w.extractLsb' (248 - 8 * k) 8) =
      w.toNat / 2 ^ (256 - 8 * n) := by
  induction n with
  | zero => exact (Nat.div_eq_of_lt w.isLt).symm
  | succ n ih =>
    have hexp : 256 - 8 * n = 248 - 8 * n + 8 := by omega
    have hnext : 256 - 8 * (n + 1) = 248 - 8 * n := by omega
    rw [List.range_succ, List.map_append, List.map_singleton, be_concat, ih (by omega),
      toNat_extractByte, hexp, hnext, pow_add, ← Nat.div_div_eq_div_mul]
    exact Nat.div_add_mod _ 256

theorem be_toBytes (w : Word) : be (toBytes w) = w.toNat :=
  (be_map_extractByte w le_rfl).trans (Nat.div_one _)

theorem fromBytes_toBytes (w : Word) : fromBytes (toBytes w) = w := by
  rw [fromBytes_eq_wordOf_be, be_toBytes, wordOf_toNat]

/-- Settles O11: byte `k` by its definition, and the inverse by the value of the 32 bytes. -/
theorem toBytesIsCanonical : Obligations.ToBytesIsCanonical := by
  refine fun w => ⟨length_toBytes w, fun k hk => ?_, fromBytes_toBytes w⟩
  have hbyte : (toBytes w)[k]? = some (w.extractLsb' (248 - 8 * k) 8) := by
    simp [toBytes, wordBytes, hk]
  rw [hbyte, Option.map_some, toNat_extractByte]

/-- Settles O12: `fromInt` branches on the sign, and `wordOf` reduces. -/
theorem fromIntReduces : Obligations.FromIntReduces := by
  refine fun v => ⟨fun h => ⟨wordOf v.toNat, if_neg (by omega), ?_⟩, fun h => if_pos h⟩
  rw [toNat_wordOf, Int.natCast_mod, Int.toNat_of_nonneg h]
  rfl

/-! ## The port (R92) -/

theorem toNat_wordSubtract (a b : Word) :
    (wordSubtract a b).toNat =
      if b.toNat ≤ a.toNat then a.toNat - b.toNat else 2 ^ 256 + a.toNat - b.toNat := by
  rw [wordSubtract, toNat_wordOf]
  split <;> omega

/-- Settles O8: each code reaches the operation of its rule, whose value the rule gives. -/
theorem aluPortAnswers : Obligations.AluPortAnswers := by
  intro c a b
  refine ⟨⟨_, rfl, toNat_wordOf _⟩, ⟨_, rfl, toNat_wordSubtract a b⟩, ⟨_, rfl, toNat_wordOf _⟩,
    ⟨_, rfl, fun hb => ?quotient, ?divisorZero⟩, ⟨_, rfl, ?equals⟩, ⟨_, rfl, ?isZero⟩, rfl, rfl⟩
  case quotient => rw [wordDivide_eq c a hb, BitVec.toNat_udiv]
  case divisorZero => rintro rfl; exact wordDivide_zero c a
  case equals => simp [BitVec.toNat_eq]
  case isZero => simp [BitVec.toNat_eq]

/-- R92: the port refuses the codes 6 and 7 and no other. -/
theorem aluPort_eq_none_iff (c : Config) (op : BitVec 3) (a b : Word) :
    aluPort c op a b = none ↔ 6 ≤ op.toNat := by
  have hcode : op.toNat < 8 := op.isLt
  unfold aluPort
  generalize op.toNat = code at hcode ⊢
  interval_cases code <;> simp

/-- Settles O52: every branch of the transaction gives the state back, and it is refused where the
port answers nothing. -/
theorem aluPortChangesNothing : Obligations.AluPortChangesNothing := by
  intro c op a b s
  rw [← aluPort_eq_none_iff c op a b, transactWith]
  cases aluPort c op a b with
  | some out => simp
  | none => simp

end Sys2Proof.Proofs
end

section
/-! PROOFS. The statements about the stack engine (41_stack_engine.md): what each operation answers at
a depth inside and outside the stack, which shortage raises which fault, and the frame of R108. -/

open Sys2Proof Sys2Proof.Machine

namespace Sys2Proof.Proofs

section Lemmas

variable {cap i : Nat} {v a b : Word} {S T : List Word}

/-! ## The answer at a given depth (R104 to R106) -/

theorem stackElementAt_of_length_le (h : S.length ≤ i) :
    stackElementAt i S = .error .indexOutOfRange := by
  rw [stackElementAt, List.getElem?_eq_none h]

theorem stackElementAt_of_getElem? (h : S[i]? = some v) : stackElementAt i S = .ok v := by
  rw [stackElementAt, h]

theorem stackDuplicate_of_length_le (h : S.length ≤ i) :
    stackDuplicate cap i S = .error .indexOutOfRange := by
  rw [stackDuplicate, stackElementAt_of_length_le h]

/-- R105: `duplicate(i)` pushes the element it reads. -/
theorem stackDuplicate_of_getElem? (h : S[i]? = some v) :
    stackDuplicate cap i S = stackPush cap v S := by
  rw [stackDuplicate, stackElementAt_of_getElem? h]

theorem stackSwap_of_length_le (h : S.length ≤ i) :
    stackSwap i S = .error .indexOutOfRange := by
  obtain ⟨-, he⟩ | ⟨_, _, -, hb, -⟩ := stackSwap_cases i S
  · exact he
  · rw [List.getElem?_eq_none h] at hb; cases hb

theorem stackSwap_of_getElem? (h0 : S[0]? = some a) (hi : S[i]? = some b) :
    stackSwap i S = .ok ((S.set 0 b).set i a) := by
  rw [stackSwap, h0, hi]

/-! ## The fault of each shortage (R111)

A fault that an operation raises names the case it is in, since the other cases answer otherwise. -/

theorem stackPop_eq_underflow_iff : stackPop S = .error .stackUnderflow ↔ S.length = 0 := by
  obtain ⟨rfl, he⟩ | ⟨_, _, rfl, he⟩ := stackPop_cases S <;> simp [he]

theorem stackTop_eq_underflow_iff : stackTop S = .error .stackUnderflow ↔ S.length = 0 := by
  obtain ⟨rfl, he⟩ | ⟨_, _, rfl, he⟩ := stackTop_cases S <;> simp [he]

theorem stackElementAt_eq_outOfRange_iff :
    stackElementAt i S = .error .indexOutOfRange ↔ S.length ≤ i := by
  refine ⟨fun h => ?_, stackElementAt_of_length_le⟩
  obtain ⟨hi, -⟩ | ⟨_, -, he⟩ := stackElementAt_cases i S
  · exact hi
  · rw [he] at h; cases h

theorem stackDuplicate_eq_outOfRange_iff :
    stackDuplicate cap i S = .error .indexOutOfRange ↔ S.length ≤ i := by
  refine ⟨fun h => ?_, stackDuplicate_of_length_le⟩
  obtain ⟨hi, -⟩ | ⟨-, -, he⟩ | ⟨_, -, -, he⟩ := stackDuplicate_cases cap i S
  · exact hi
  all_goals rw [he] at h; cases h

theorem stackSwap_eq_outOfRange_iff :
    stackSwap i S = .error .indexOutOfRange ↔ S.length ≤ i := by
  refine ⟨fun h => ?_, stackSwap_of_length_le⟩
  obtain ⟨hi, -⟩ | ⟨_, _, -, -, he⟩ := stackSwap_cases i S
  · exact hi
  · rw [he] at h; cases h

theorem stackPush_eq_overflow_iff : stackPush cap v S = .error .stackOverflow ↔ S.length = cap := by
  obtain ⟨hc, he⟩ | ⟨hc, he⟩ := stackPush_cases cap v S <;> simp [he, hc]

/-- R105: the depth is tested first, so a full stack overflows at a depth inside it only. -/
theorem stackDuplicate_eq_overflow_iff :
    stackDuplicate cap i S = .error .stackOverflow ↔ i < S.length ∧ S.length = cap := by
  obtain ⟨hi, he⟩ | ⟨hi, hc, he⟩ | ⟨_, -, hc, he⟩ := stackDuplicate_cases cap i S
  · simp [he, hi.not_gt]
  · exact iff_of_true he ⟨hi, hc⟩
  · simp [he, hc]

/-! ## The frame (R108) -/

/-- R101: a push that succeeds puts the Word above the whole old stack. -/
theorem stackPush_ok (h : stackPush cap v S = .ok T) : T = v :: S := by
  obtain ⟨-, he⟩ | ⟨-, he⟩ := stackPush_cases cap v S <;> rw [he] at h <;> cases h
  rfl

/-- R102: a pop that succeeds splits the top off. -/
theorem stackPop_ok (h : stackPop S = .ok (v, T)) : S = v :: T := by
  obtain ⟨-, he⟩ | ⟨_, _, rfl, he⟩ := stackPop_cases S <;> rw [he] at h <;> cases h
  rfl

/-- R106: the exchange itself, at depths 0 and `i`, which may be the same. -/
theorem stackSwap_exchanges (h : stackSwap i S = .ok T) : T[0]? = S[i]? ∧ T[i]? = S[0]? := by
  obtain ⟨-, he⟩ | ⟨a, b, h0, hi, he⟩ := stackSwap_cases i S <;> rw [he] at h <;> cases h
  obtain ⟨hlt, -⟩ := List.getElem?_eq_some_iff.mp hi
  have hpos : 0 < S.length := by omega
  constructor
  · obtain rfl | hne := eq_or_ne i 0
    · rw [h0]; simp [hpos]
    · simp [hne, hpos, hi]
  · simp [hlt, h0]

end Lemmas

/-! ## The statements -/

/-- Settles O13: each operation by its equation at a depth outside or inside the stack. -/
theorem stackEngineAnswers : Obligations.StackEngineAnswers := fun _ _ _ _ =>
  ⟨rfl, ⟨rfl, rfl⟩, ⟨rfl, rfl⟩, stackElementAt_of_length_le, fun _ => stackElementAt_of_getElem?,
    stackDuplicate_of_length_le, fun _ => stackDuplicate_of_getElem?, stackSwap_of_length_le,
    fun _ _ => stackSwap_of_getElem?, rfl⟩

/-- Settles O14: one equivalence per operation and shortage. -/
theorem stackShortageFaults : Obligations.StackShortageFaults := fun _ _ _ _ =>
  ⟨stackPop_eq_underflow_iff, stackTop_eq_underflow_iff, stackElementAt_eq_outOfRange_iff,
    stackDuplicate_eq_outOfRange_iff, stackSwap_eq_outOfRange_iff, stackPush_eq_overflow_iff,
    stackDuplicate_eq_overflow_iff⟩

/-- Settles O15: push, duplicate and pop by the list each answers, swap by its two exchanged depths
and its frame. -/
theorem stackOperationsKeepOrder : Obligations.StackOperationsKeepOrder := by
  refine fun cap i v S T => ⟨fun h => ?push, fun h => ?duplicate, fun h => ?pop, fun h => ?swap⟩
  case push => rw [stackPush_ok h]; exact ⟨rfl, fun _ => rfl⟩
  case duplicate =>
    obtain ⟨w, hw, -, rfl⟩ := stackDuplicate_ok h
    exact ⟨hw.symm, fun _ => rfl⟩
  case pop => rw [stackPop_ok h]; exact ⟨rfl, fun _ => rfl⟩
  case swap =>
    obtain ⟨htop, hdepth⟩ := stackSwap_exchanges h
    exact ⟨stackSwap_length h, htop, hdepth, fun _ => stackSwap_getElem?_of_ne h⟩

end Sys2Proof.Proofs
end

section
/-! PROOFS. The statements about the sequencer (42_sequencer.md): when there is a step and what it
runs, what it does at each kind of opcode byte, how long a run lasts, and the host's transactions. -/

open Sys2Proof Sys2Proof.Machine

namespace Sys2Proof.Proofs

/-! ## When there is a step (R122) and what it runs (R123) -/

theorem stepWith_of_not_running {c : Config} {s : State} (h : status s ≠ .running) :
    stepWith c s = .refused .notRunning := by
  obtain ⟨-, e⟩ | ⟨hr, -⟩ | ⟨hr, -⟩ := stepWith_cases c s
  · exact e
  all_goals exact absurd hr h

theorem stepWith_of_decode_ok {c : Config} {s : State} {i : Instr} {rest : List Byte}
    (hr : status s = .running) (hd : decodeWith c (fetchBytes s) = .ok (i, rest)) :
    stepWith c s = execWith c i s := by
  rw [stepWith, fetchWith, hr, hd]; rfl

theorem stepWith_of_decode_error {c : Config} {s : State} {e : DecodeError}
    (hr : status s = .running) (hd : decodeWith c (fetchBytes s) = .error e) :
    stepWith c s = .next (raiseFault .invalidOpcode s) := by
  rw [stepWith, fetchWith, hr, hd]; rfl

/-- R123, R245: an instruction answers a next state, in which the code space is as before (R33). -/
theorem exists_execWith_eq_next (c : Config) (i : Instr) (s : State) :
    ∃ t, execWith c i s = .next t ∧ t.code = s.code := by
  obtain ⟨k, he⟩ | ⟨n, S, -, he⟩ := execWith_cases c i s
  · exact ⟨_, he, raiseFault_code k s⟩
  · exact ⟨_, he, complete_code n S s⟩

theorem exists_stepWith_eq_next {c : Config} {s : State} (h : status s = .running) :
    ∃ t, stepWith c s = .next t := by
  obtain ⟨hn, -⟩ | ⟨-, e, -, he⟩ | ⟨-, i, rest, -, he⟩ := stepWith_cases c s
  · exact absurd h hn
  · exact ⟨_, he⟩
  · obtain ⟨t, ht, -⟩ := exists_execWith_eq_next c i s
    exact ⟨t, he.trans ht⟩

theorem stepWith_eq_refused_iff (c : Config) (s : State) :
    stepWith c s = .refused .notRunning ↔ status s ≠ .running := by
  refine ⟨fun h hr => ?_, stepWith_of_not_running⟩
  obtain ⟨t, ht⟩ := exists_stepWith_eq_next (c := c) hr
  rw [ht] at h; cases h

/-! ## What a step does at each kind of opcode byte (R150, R190, R210, R230, R244) -/

/-- R123: the routine that a step of the build `c` calls for the decoded opcode byte, where
`following` are the bytes after it. -/
def runDecoded (c : Config) (d : Decoded) (following : List Byte) (s : State) :
    Host.Outcome State Fault Refusal :=
  match d with
  | .push n => pushN c n (following.take n) s
  | .dup n => dupN c n s
  | .swap n => swapN n s
  | .isZero => execIsZero s
  | .invalid => .next (raiseFault .invalidOpcode s)

/-- R53, R55: the modifier of a decoded opcode byte lies in its family's range. -/
theorem decodeByte_range (c : Config) (b : Byte) :
    match decodeByte c b with
    | .push n => 1 ≤ n ∧ n ≤ pushMax
    | .dup n => 1 ≤ n ∧ n ≤ dupMax
    | .swap n => 1 ≤ n ∧ n ≤ swapMax
    | .isZero | .invalid => True := by
  obtain ⟨k, hk, -, he⟩ | ⟨k, hk, -, he⟩ | ⟨k, hk, -, he⟩ | ⟨-, he⟩ | ⟨-, -, -, -, he⟩ :=
    decodeByte_cases c b <;> simp only [he, pushMax, dupMax, swapMax] <;> omega

/-- R58: only an invalid opcode byte names no instruction. -/
theorem decodeByte_eq_invalid_of_ofDecoded_eq_none {c : Config} {b : Byte} {following : List Byte}
    (h : Instr.ofDecoded (decodeByte c b) following = none) : decodeByte c b = .invalid := by
  have hr := decodeByte_range c b
  cases hd : decodeByte c b with rw [hd] at h hr
  | push n =>
    have hs := (Laws.ofPush_isSome_iff n (following.take n)).mpr hr
    exact absurd h (Option.isSome_iff_ne_none.mp hs)
  | dup n => exact absurd h (Option.isSome_iff_ne_none.mp ((Laws.ofDup_isSome_iff n).mpr hr))
  | swap n => exact absurd h (Option.isSome_iff_ne_none.mp ((Laws.ofSwap_isSome_iff n).mpr hr))
  | isZero => cases h

theorem ofDecoded_eq_none_of_decodeWith_error {c : Config} {b : Byte} {following : List Byte}
    {e : DecodeError} (h : decodeWith c (b :: following) = .error e) :
    Instr.ofDecoded (decodeByte c b) following = none := by
  rw [decodeWith] at h
  cases hd : Instr.ofDecoded (decodeByte c b) following with
  | none => rfl
  | some i => rw [hd] at h; cases h

theorem execWith_eq_runDecoded {c : Config} {d : Decoded} {following : List Byte} {i : Instr}
    (h : Instr.ofDecoded d following = some i) (s : State) :
    execWith c i s = runDecoded c d following s := by
  obtain ⟨n, rfl, hf⟩ | ⟨n, rfl, hf⟩ | ⟨n, rfl, hf⟩ | ⟨rfl, hf⟩ := ofDecoded_cases h <;>
    rw [execWith, hf] <;> rfl

/-- R121, R123: a step of a Running machine runs what the opcode byte at `pc` decodes to. -/
theorem stepWith_eq_runDecoded {c : Config} {s : State} {b : Byte} (hr : status s = .running)
    (hb : readByte s s.pc = some b) :
    stepWith c s = runDecoded c (decodeByte c b) (s.code.drop (s.pc + 1)) s := by
  obtain ⟨b', hb', hbytes⟩ := fetchBytes_of_running hr
  obtain rfl : b = b' := Option.some.inj (hb.symm.trans hb')
  cases hd : decodeWith c (b :: s.code.drop (s.pc + 1)) with
  | error e =>
    rw [stepWith_of_decode_error hr (hbytes ▸ hd), decodeByte_eq_invalid_of_ofDecoded_eq_none
      (ofDecoded_eq_none_of_decodeWith_error hd)]
    rfl
  | ok p =>
    rw [stepWith_of_decode_ok hr (hbytes ▸ hd)]
    exact execWith_eq_runDecoded (ofDecoded_of_decodeWith_ok hd) s

section Families

variable {c : Config} {n : Nat} {imm : List Byte} {s : State} {v a b : Word} {rest : List Word}

theorem stackPush_of_length_ne {cap : Nat} {S : List Word} (h : S.length ≠ cap) :
    stackPush cap v S = .ok (v :: S) :=
  if_neg h

theorem pushN_of_truncated (h : imm.length < n) :
    pushN c n imm s = .next (raiseFault .truncatedOperand s) := by
  rw [pushN, pushOperand, if_pos h]; rfl

theorem pushN_of_full (h : n ≤ imm.length) (hc : s.size = c.stackCapacity) :
    pushN c n imm s = .next (raiseFault .stackOverflow s) := by
  rw [pushN, pushOperand, if_neg h.not_gt]
  simp only [stackPush_eq_overflow_iff.mpr hc, finish]

theorem pushN_of_room (h : n ≤ imm.length) (hc : s.size ≠ c.stackCapacity) :
    pushN c n imm s = .next (complete (1 + n) (fromBytes (imm.take n) :: s.stack) s) := by
  rw [pushN, pushOperand, if_neg h.not_gt]
  simp only [stackPush_of_length_ne hc, finish]

theorem dupN_of_shallow (h : s.size ≤ n - 1) :
    dupN c n s = .next (raiseFault .indexOutOfRange s) := by
  rw [dupN, stackDuplicate_of_length_le h]; rfl

theorem dupN_of_full (h : s.stack[n - 1]? = some v) (hc : s.size = c.stackCapacity) :
    dupN c n s = .next (raiseFault .stackOverflow s) := by
  rw [dupN, stackDuplicate_of_getElem? h, stackPush_eq_overflow_iff.mpr hc]; rfl

theorem dupN_of_room (h : s.stack[n - 1]? = some v) (hc : s.size ≠ c.stackCapacity) :
    dupN c n s = .next (complete 1 (v :: s.stack) s) := by
  rw [dupN, stackDuplicate_of_getElem? h, stackPush_of_length_ne hc]; rfl

theorem swapN_of_shallow (h : s.size ≤ n) :
    swapN n s = .next (raiseFault .indexOutOfRange s) := by
  rw [swapN, stackSwap_of_length_le h]; rfl

theorem swapN_of_getElem? (h0 : s.stack[0]? = some a) (hn : s.stack[n]? = some b) :
    swapN n s = .next (complete 1 ((s.stack.set 0 b).set n a) s) := by
  rw [swapN, stackSwap_of_getElem? h0 hn]; rfl

theorem execIsZero_of_empty (h : s.size = 0) :
    execIsZero s = .next (raiseFault .stackUnderflow s) := by
  rw [execIsZero, List.eq_nil_of_length_eq_zero h]; rfl

theorem execIsZero_of_cons (h : s.stack = a :: rest) :
    execIsZero s = .next (complete 1 (isZeroResult a :: rest) s) := by
  rw [execIsZero, h]; rfl

end Families

/-- R230: the test of IsZero, by the equality of Words (R89). -/
theorem isZeroResult_eq (a : Word) :
    isZeroResult a = if a = wordZero then wordOne else wordZero := by
  rw [isZeroResult, wordIsZero_eq]
  exact if_congr decide_eq_true_iff rfl rfl

/-! ## How long a run lasts (R129) -/

/-- R15, R129: a step that completes increases `pc`, and the instruction ends inside the buffer. -/
theorem stepWith_advances {c : Config} {s t : State} (h : stepWith c s = .next t)
    (hf : t.fault = none) : s.pc < t.pc ∧ t.pc ≤ t.len := by
  obtain ⟨hr, b, -, ⟨k, rfl⟩ | ⟨i, n, S, hi, hop, rfl⟩⟩ := stepWith_next_cases h
  · rw [raiseFault_fault] at hf; cases hf
  · obtain ⟨hlen, hle⟩ := decodedLength_of_completes hi hop
    have hpos : 1 ≤ n := by
      obtain ⟨m, -, rfl⟩ | ⟨-, rfl⟩ := decodedLength_eq_some hlen <;> omega
    have hpc := ((status_eq_running_iff s).mp hr).2
    rw [List.length_drop] at hle
    simp only [complete_pc, complete_len]
    unfold State.len at hpc ⊢
    omega

/-- The state after the `Step` transaction of the build `c`. -/
def afterStep (c : Config) (s : State) : State := (transactWith c .step s).1

theorem step_transaction_of_next {c : Config} {s t : State} (h : stepWith c s = .next t) :
    transactWith c .step s = (t, .ok) := by
  rw [transactWith, hostStep, h]

theorem step_transaction_of_not_running {c : Config} {s : State} (h : status s ≠ .running) :
    transactWith c .step s = (s, .refused) := by
  rw [transactWith, hostStep, stepWith_of_not_running h]

theorem runSteps_of_not_running (c : Config) (limit : Nat) {s : State}
    (h : status s ≠ .running) : runSteps c limit s = s := by
  cases limit with
  | zero => rfl
  | succ n => rw [runSteps, stepWith_of_not_running h]

theorem runSteps_succ_of_next {c : Config} {s t : State} (limit : Nat)
    (h : stepWith c s = .next t) : runSteps c (limit + 1) s = runSteps c limit t := by
  rw [runSteps, h]

/-- R129: after a step the bound on the steps that are left is smaller by one. -/
theorem remaining_lt_of_step {c : Config} {s t : State} (h : stepWith c s = .next t)
    (ht : status t = .running) : t.len - t.pc < s.len - s.pc := by
  obtain ⟨hf, htpc⟩ := (status_eq_running_iff t).mp ht
  have hlen : t.len = s.len := congrArg List.length (stepWith_code h)
  have hpc := (stepWith_advances h hf).1
  omega

/-- R128, R129: with a limit of at least `len - pc` steps a run is a number of `Step` transactions,
each taken in Running, and ends outside Running. -/
theorem runSteps_eq_iterate (c : Config) (limit : Nat) {s : State}
    (hlimit : status s = .running → s.len - s.pc ≤ limit) :
    ∃ k, k ≤ limit ∧ (∀ j, j < k → status ((afterStep c)^[j] s) = .running) ∧
      runSteps c limit s = (afterStep c)^[k] s ∧ status (runSteps c limit s) ≠ .running := by
  induction limit generalizing s with
  | zero =>
    have hr : status s ≠ .running := fun hr => by
      have hleft := hlimit hr
      have hpc := ((status_eq_running_iff s).mp hr).2
      omega
    exact ⟨0, Nat.le_refl 0, fun j hj => absurd hj (Nat.not_lt_zero j), rfl, hr⟩
  | succ n ih =>
    by_cases hr : status s = .running
    · obtain ⟨t, ht⟩ := exists_stepWith_eq_next (c := c) hr
      have hafter : afterStep c s = t := congrArg Prod.fst (step_transaction_of_next ht)
      have hleft : status t = .running → t.len - t.pc ≤ n := fun htr =>
        Nat.le_of_lt_succ ((remaining_lt_of_step ht htr).trans_le (hlimit hr))
      obtain ⟨k, hk, hrun, heq, hend⟩ := ih hleft
      rw [runSteps_succ_of_next n ht]
      refine ⟨k + 1, Nat.succ_le_succ hk, fun j hj => ?_, ?_, hend⟩
      · cases j with
        | zero => exact hr
        | succ j =>
          rw [Function.iterate_succ_apply, hafter]
          exact hrun j (Nat.lt_of_succ_lt_succ hj)
      · rw [Function.iterate_succ_apply, hafter, heq]
    · rw [runSteps_of_not_running c (n + 1) hr]
      exact ⟨0, Nat.zero_le _, fun j hj => absurd hj (Nat.not_lt_zero j), rfl, hr⟩

/-! ## Loading a buffer (R126) -/

/-- R126: a loaded machine runs, unless the buffer is empty. -/
theorem status_loadCode (bytes : List Byte) {s : State} (h : status s = .halted) :
    status (loadCode bytes s) = if bytes.length = 0 then .halted else .running := by
  have hf := ((status_eq_halted_iff s).mp h).1
  split_ifs with hb
  · exact (status_eq_halted_iff _).mpr ⟨hf, hb.le⟩
  · exact (status_eq_running_iff _).mpr ⟨hf, Nat.pos_of_ne_zero hb⟩

/-- R126, U12: the two reasons to refuse a `LoadCode` or an `Execute`. -/
theorem not_loadAccepted {c : Config} {bytes : List Byte} {s : State}
    (h : status s ≠ .halted ∨ ∃ m, c.codeMaxLen = some m ∧ m < bytes.length) :
    ¬ loadAccepted c bytes s = true := by
  rw [loadAccepted_iff]
  rintro ⟨hs, hfits⟩
  obtain hn | ⟨m, hm, hlong⟩ := h
  · exact hn hs
  · exact absurd (hfits m hm) hlong.not_ge

/-! ## A word placed at `pc` (log entry 9) -/

@[simp] theorem length_tableBytes (nbits w : Nat) :
    (tableBytes nbits w).length = maxInstrBytes := by
  simp [tableBytes]

theorem fetchBytes_withFetchWord (s : State) (nbits w : Nat) :
    fetchBytes (s.withFetchWord nbits w) =
      tableBytes nbits w ++ s.code.drop (s.pc + maxInstrBytes) := by
  have hbefore : ((s.code ++ List.replicate (s.pc - s.code.length) 0).take s.pc).length = s.pc := by
    rw [List.length_take, List.length_append, List.length_replicate]
    omega
  rw [fetchBytes, State.withFetchWord, List.append_assoc]
  exact List.drop_left' hbefore

theorem status_withFetchWord (s : State) (nbits w : Nat) :
    status (s.withFetchWord nbits w) = .running := by
  refine (status_eq_running_iff _).mpr ⟨rfl, ?_⟩
  have hlen := congrArg List.length (fetchBytes_withFetchWord s nbits w)
  rw [fetchBytes, List.length_drop, List.length_append, length_tableBytes, maxInstrBytes] at hlen
  unfold State.len
  omega

/-- R50: no opcode byte announces more operand bytes than `Push32` has. -/
theorem operandLength_decodeByte_le (c : Config) (b : Byte) :
    operandLength (decodeByte c b) ≤ pushMax := by
  have hr := decodeByte_range c b
  cases hd : decodeByte c b with rw [hd] at hr
  | push n => exact hr.2
  | dup | swap | isZero | invalid => exact Nat.zero_le _

/-- R50: the decoder reads at most 33 bytes, so bytes after those do not change its answer. -/
theorem decodeWith_append {c : Config} {bytes rest : List Byte} {i : Instr}
    (hlen : maxInstrBytes ≤ bytes.length) (h : decodeWith c bytes = .ok (i, rest))
    (more : List Byte) : decodeWith c (bytes ++ more) = .ok (i, rest ++ more) := by
  cases bytes with
  | nil => cases h
  | cons b following =>
    obtain ⟨hi, rfl⟩ := (decodeWith_cons_eq_ok_iff c b following rest i).mp h
    have hn : operandLength (decodeByte c b) ≤ following.length :=
      (operandLength_decodeByte_le c b).trans (Nat.le_of_succ_le_succ hlen)
    rw [ofDecoded_eq_some_iff] at hi
    rw [List.cons_append, decodeWith_cons_eq_ok_iff, ofDecoded_eq_some_iff,
      List.take_append_of_le_length hn, List.drop_append_of_le_length hn]
    exact ⟨hi, rfl⟩

theorem decodeTableWord_eq_some {nbits w : Nat} {i : Instr} (h : decodeTableWord nbits w = some i) :
    ∃ rest, decode (tableBytes nbits w) = .ok (i, rest) := by
  rw [decodeTableWord] at h
  cases hd : decode (tableBytes nbits w) with
  | error e => rw [hd] at h; cases h
  | ok p => rw [hd] at h; cases h; exact ⟨p.2, rfl⟩

/-! ## The obligations -/

/-- Settles O57: what a fetch in a Running machine decodes is what the step runs. -/
theorem everyBuildRunsDecodedInstruction : Obligations.EveryBuildRunsDecodedInstruction := by
  intro c s
  rw [← status_eq_running_iff]
  refine ⟨fun hf hpc => ?_, stepWith_of_not_running⟩
  have hr := (status_eq_running_iff s).mpr ⟨hf, hpc⟩
  exact ⟨fun _ _ => stepWith_of_decode_ok hr, fun _ => stepWith_of_decode_error hr⟩

/-- Settles O21: the rule of O57 at the modelled build. -/
theorem stepRunsDecodedInstruction : Obligations.StepRunsDecodedInstruction := by
  intro s hf hpc
  obtain ⟨hok, herror⟩ := (everyBuildRunsDecodedInstruction Config.build s).1 hf hpc
  simp only [step_eq_stepWith, exec_eq_execWith]
  exact ⟨hok, herror⟩

/-- Settles O34: a fault and a completion are both next states, and neither writes the code
space. -/
theorem everyInstructionAnswersNext : Obligations.EveryInstructionAnswersNext := fun i s =>
  exec_eq_execWith i s ▸ exists_execWith_eq_next Config.build i s

/-- Settles O35: every instruction is the end of an instruction around one operation on the stack,
which the two states share. -/
theorem effectDependsOnStackOnly : Obligations.EffectDependsOnStackOnly := by
  intro i s t s' t' hS hs ht hs' ht'
  rw [exec_eq_execWith, execWith_eq_finish] at hs' ht'
  rw [← hS] at ht'
  generalize stackOperation Config.build i.form s.stack = op at hs' ht'
  obtain ⟨n, T | k⟩ := op <;> cases hs' <;> cases ht'
  · exact ⟨hS, rfl, Nat.add_comm _ _⟩
  · refine ⟨rfl, hs.trans ht.symm, ?_⟩
    simp only [complete_pc]
    omega

/-- Settles O46: a Running machine has a next state, and any other has no step. -/
theorem stepTransactionRule : Obligations.StepTransactionRule := by
  have hrule : ∀ (c : Config) (s : State),
      (status s = .running → ∃ t, stepWith c s = .next t ∧ transactWith c .step s = (t, .ok)) ∧
      (status s ≠ .running → transactWith c .step s = (s, .refused)) := fun c s =>
    ⟨fun hr => (exists_stepWith_eq_next hr).imp fun _ ht => ⟨ht, step_transaction_of_next ht⟩,
      step_transaction_of_not_running⟩
  intro s
  rw [step_eq_stepWith]
  exact ⟨(hrule Config.build s).1, (hrule Config.build s).2, fun c => hrule c s⟩

/-- Settles O22: Running is `fault = None` and `pc < len`, and exactly then a step has a next
state. -/
theorem stepOnlyWhenRunning : Obligations.StepOnlyWhenRunning := by
  intro s
  rw [step_eq_stepWith, ← status_eq_running_iff]
  refine ⟨stepWith_eq_refused_iff Config.build s, fun hr => ⟨?_, exists_stepWith_eq_next hr⟩,
    fun hn => congrArg Prod.fst (step_transaction_of_not_running hn)⟩
  obtain ⟨b, hb, -⟩ := fetchBytes_of_running hr
  exact ⟨b, hb⟩

/-- Settles O45: the acceptance rule of `LoadCode`, and `status` after the load. -/
theorem loadCodeRule : Obligations.LoadCodeRule := fun c bytes s =>
  ⟨fun hs hfits =>
      ⟨if_pos ((loadAccepted_iff c bytes s).mpr ⟨hs, hfits⟩), status_loadCode bytes hs⟩,
    fun h => if_neg (not_loadAccepted h)⟩

/-- Settles O47: an `Execute` steps with the limit `length(bytes)`, which is `len - pc` after its
load. -/
theorem executeRunsToTheEnd : Obligations.ExecuteRunsToTheEnd := by
  intro c bytes s
  refine ⟨fun h => if_neg (not_loadAccepted h), fun hs hfits => ?_⟩
  have ha := (loadAccepted_iff c bytes s).mpr ⟨hs, hfits⟩
  have hload : transactWith c (.loadCode bytes) s = (loadCode bytes s, .ok) := if_pos ha
  have hexecute : transactWith c (.execute bytes) s =
      (executeCode c bytes s, .finished (executeCode c bytes s).fault) := if_pos ha
  rw [hload, hexecute]
  obtain ⟨k, hk, hrun, heq, hend⟩ :=
    runSteps_eq_iterate c bytes.length (s := loadCode bytes s) fun _ => Nat.sub_le _ _
  exact ⟨k, hk, hrun, heq, hend, rfl⟩

/-- Settles O48: a completing step moves `pc` on, so the run with the limit `len - pc` ends. -/
theorem runTakesAtMostRemainingBytes : Obligations.RunTakesAtMostRemainingBytes := by
  refine ⟨fun s t ht => stepWith_advances (step_eq_stepWith s ▸ ht),
    fun c => ⟨fun s t => stepWith_advances, fun s => ?_⟩⟩
  obtain ⟨k, hk, -, heq, hend⟩ := runSteps_eq_iterate c (s.len - s.pc) fun _ => Nat.le_refl _
  exact ⟨k, hk, heq ▸ hend⟩

/-- Settles O49: each read by the answer of its stack operation. -/
theorem stackPortReads : Obligations.StackPortReads := by
  refine fun c s i => ⟨rfl, fun v rest hS => ?_, fun h => ?_, fun v hv => ?_, fun h => ?_⟩
  · rw [transactWith, hS]; rfl
  · rw [transactWith, stackTop_eq_underflow_iff.mpr h]; rfl
  · rw [transactWith, stackElementAt_of_getElem? hv]; rfl
  · rw [transactWith, stackElementAt_of_length_le h]; rfl

/-- Settles O50: `Pop` by the status first and then by the stack. -/
theorem hostPopRule : Obligations.HostPopRule := by
  refine fun c s => ⟨fun hn => ?_, fun hs h => ?_, fun hs v rest hS => ?_⟩ <;>
    rw [transactWith, hostPop]
  · cases hs : status s with
    | halted => exact absurd hs hn
    | running | faulted => rfl
  · rw [hs, stackPop_eq_underflow_iff.mpr h]
  · rw [hs, hS]; rfl

/-- Settles O55: the placed word stands first in the bytes at `pc`, and the bytes after it are
beyond what the decoder reads. -/
theorem placedWordRunsNext : Obligations.PlacedWordRunsNext := by
  intro s nbits w i hw
  obtain ⟨rest, hd⟩ := decodeTableWord_eq_some hw
  have hfetch := decodeWith_append (length_tableBytes nbits w).ge hd
    (s.code.drop (s.pc + maxInstrBytes))
  rw [← fetchBytes_withFetchWord] at hfetch
  rw [step_eq_stepWith, exec_eq_execWith]
  exact stepWith_of_decode_ok (status_withFetchWord s nbits w) hfetch

/-- Settles O58: the step runs the routine of its opcode byte, and each routine by its conditions in
their order. -/
theorem everyBuildStepFollowsRules : Obligations.EveryBuildStepFollowsRules := by
  intro c s b hr hb
  have hstep := stepWith_eq_runDecoded (c := c) hr hb
  have hrange := decodeByte_range c b
  have hpc : s.pc < s.len := ((status_eq_running_iff s).mp hr).2
  rw [hstep]
  cases hd : decodeByte c b with rw [hd] at hrange
  | push n =>
    have himm : ((s.code.drop (s.pc + 1)).take n).length = min n (s.len - (s.pc + 1)) := by
      rw [List.length_take, List.length_drop, State.len]
    refine ⟨fun h => pushN_of_truncated (by omega), fun h => pushN_of_full (by omega),
      fun h hc => ⟨_, (memRead_eq_some_iff _ _ _ _).mpr ⟨by omega, rfl⟩, ?_⟩⟩
    refine (pushN_of_room (by omega) hc).trans ?_
    rw [List.take_take, Nat.min_self, complete, Nat.add_assoc]
  | dup n =>
    have hcopy : n ≤ s.size → ∃ v, s.stack[n - 1]? = some v := fun h =>
      ⟨_, List.getElem?_eq_getElem (Nat.sub_one_lt_of_le hrange.1 h)⟩
    refine ⟨fun h => dupN_of_shallow (Nat.le_sub_one_of_lt h), fun h hc => ?_, fun h hc => ?_⟩ <;>
      obtain ⟨v, hv⟩ := hcopy h
    · exact dupN_of_full hv hc
    · exact ⟨v, hv, dupN_of_room hv hc⟩
  | swap n => exact ⟨swapN_of_shallow, fun x y => swapN_of_getElem?⟩
  | isZero =>
    exact ⟨execIsZero_of_empty, fun a rest hS => isZeroResult_eq a ▸ execIsZero_of_cons hS⟩
  | invalid => rfl

end Sys2Proof.Proofs
end

section
/-! PROOFS. The statements about the Push family (43_push.md): its completion, and the step at a
Push's opcode byte. -/

open Sys2Proof Sys2Proof.Machine

namespace Sys2Proof.Proofs

/-- R52: a well-formed Push carries exactly N operand bytes. -/
theorem length_of_wellFormed_push {i : Instr} {n : Nat} {imm : List Byte}
    (hf : i.form = .push n imm) (hwf : i.WellFormed) : imm.length = n := by
  have hlen := (wellFormed_iff i).mp hwf
  rw [hf] at hlen
  exact hlen

/-- R6: `MemRead(addr, n)` gives n bytes. -/
theorem length_of_memRead {s : State} {addr n : Nat} {bytes : List Byte}
    (h : memRead s addr n = some bytes) : bytes.length = n := by
  obtain ⟨hle, rfl⟩ := (memRead_eq_some_iff s addr n bytes).mp h
  rw [State.len] at hle
  rw [List.length_take, List.length_drop]
  omega

/-- R6: the big-endian value of n bytes is below `2^(8n)`. -/
theorem be_lt_two_pow (bytes : List Byte) : be bytes < 2 ^ (8 * bytes.length) := by
  rw [Nat.pow_mul]
  exact be_lt bytes

/-- Settles O17: a well-formed Push has all its operand bytes, so with room it pushes their Word. -/
theorem pushCompletes : Obligations.PushCompletes := by
  intro i n imm s hf hwf hroom
  obtain rfl := length_of_wellFormed_push hf hwf
  have hexec : exec i s = pushN Config.build imm.length imm s := by
    rw [exec_eq_execWith, execWith, hf]
  rw [hexec, pushN_of_room (Nat.le_refl _) hroom, List.take_length, complete, Nat.add_assoc]

/-- Settles O23: by R55 the opcode byte decodes as a Push of modifier N, and O58 gives the rule of
that byte on the modelled build; the N bytes fit a Word, so its value is theirs. -/
theorem pushStepFollowsRule : Obligations.PushStepFollowsRule := by
  intro s n b hr h1 h32 hb hop
  obtain ⟨hpush, -⟩ := decodeByteByRange Config.build b Laws.build_valid
  have hrule := everyBuildStepFollowsRules Config.build s b hr hb
  rw [(hpush n).mpr ⟨h1, h32, hop⟩, ← step_eq_stepWith] at hrule
  obtain ⟨htruncated, hfull, hroom⟩ := hrule
  refine ⟨htruncated, hfull, fun hn hc => ?_⟩
  obtain ⟨bytes, hread, hstep⟩ := hroom hn hc
  have hlen := length_of_memRead hread
  have hvalue : (fromBytes bytes).toNat = be bytes := toNat_fromBytes (hlen.trans_le h32)
  have hbound : (fromBytes bytes).toNat < 2 ^ (8 * n) := hvalue ▸ hlen ▸ be_lt_two_pow bytes
  exact ⟨bytes, fromBytes bytes, hread, hvalue, hbound, hstep, fun hend =>
    (status_eq_halted_iff _).mpr ⟨((status_eq_running_iff s).mp hr).1, hend.ge⟩⟩

end Sys2Proof.Proofs
end

section
/-! PROOFS. The statements about the Dup family (44_dup.md): its completion, and the step at a Dup's
opcode byte. -/

open Sys2Proof Sys2Proof.Machine

namespace Sys2Proof.Proofs

/-- Settles O18: the one-based modifier reaches depth N - 1, which holds an element, so with room the
Dup pushes its copy. -/
theorem dupCompletes : Obligations.DupCompletes := by
  intro i n s hf hn hroom
  have hexec : exec i s = dupN Config.build n s := by
    rw [exec_eq_execWith, execWith, hf]
  have hrange := form_range i
  rw [hf] at hrange
  have hv := List.getElem?_eq_getElem (Nat.sub_one_lt_of_le hrange.1 hn)
  exact ⟨_, hv, hexec.trans (dupN_of_room hv hroom)⟩

/-- Settles O24: by R55 the opcode byte decodes as a Dup of modifier N, and O58 gives the rule of that
byte on the modelled build; the push moves the copied element from depth N - 1 to depth N. -/
theorem dupStepFollowsRule : Obligations.DupStepFollowsRule := by
  intro s n b hr h1 h16 hb hop
  obtain ⟨-, hdup, -⟩ := decodeByteByRange Config.build b Laws.build_valid
  have hrule := everyBuildStepFollowsRules Config.build s b hr hb
  rw [(hdup n).mpr ⟨h1, h16, hop⟩, ← step_eq_stepWith] at hrule
  obtain ⟨hshallow, hfull, hroom⟩ := hrule
  refine ⟨hshallow, hfull, fun hn hc => ?_⟩
  obtain ⟨v, hv, hstep⟩ := hroom hn hc
  have hdeeper : (v :: s.stack)[n]? = some v := by
    rw [List.getElem?_cons, if_neg (Nat.ne_of_gt h1), hv]
  exact ⟨v, _, hv, rfl, hstep, hdeeper⟩

end Sys2Proof.Proofs
end

section
/-! PROOFS. The statements about the Swap family (45_swap.md): its completion, its inverse, and the
step at a Swap's opcode byte. -/

open Sys2Proof Sys2Proof.Machine

namespace Sys2Proof.Proofs

/-- R106: an exchange with a depth inside the stack succeeds. -/
theorem exists_stackSwap_eq_ok {i : Nat} {S : List Word} (h : i < S.length) :
    ∃ T, stackSwap i S = .ok T := by
  obtain ⟨hle, -⟩ | ⟨a, b, -, -, he⟩ := stackSwap_cases i S
  · exact absurd h hle.not_gt
  · exact ⟨_, he⟩

/-- R106: an exchange is its own inverse. -/
theorem stackSwap_involutive {i : Nat} {S T U : List Word} (hST : stackSwap i S = .ok T)
    (hTU : stackSwap i T = .ok U) : U = S := by
  obtain ⟨hT0, hTi⟩ := stackSwap_exchanges hST
  obtain ⟨hU0, hUi⟩ := stackSwap_exchanges hTU
  refine List.ext_getElem? fun j => ?_
  obtain rfl | h0 := eq_or_ne j 0
  · exact hU0.trans hTi
  obtain rfl | hi := eq_or_ne j i
  · exact hUi.trans hT0
  · rw [stackSwap_getElem?_of_ne hTU h0 hi, stackSwap_getElem?_of_ne hST h0 hi]

/-- Writing to a depth the element it holds changes nothing. -/
theorem set_eq_self_of_getElem? {i : Nat} {S : List Word} {a : Word} (h : S[i]? = some a) :
    S.set i a = S := by
  obtain ⟨hi, rfl⟩ := List.getElem?_eq_some_iff.mp h
  exact List.set_getElem_self hi

/-- R210: a Swap with more than N elements completes with the exchanged stack. -/
theorem exec_swap_completes {i : Instr} {n : Nat} {s : State} (hf : i.form = .swap n)
    (hn : n < s.size) :
    ∃ T, stackSwap n s.stack = .ok T ∧ exec i s = .next (complete 1 T s) := by
  obtain ⟨T, hT⟩ := exists_stackSwap_eq_ok hn
  refine ⟨T, hT, ?_⟩
  rw [exec_eq_execWith, execWith, hf]
  simp only [swapN, hT, finish]

/-- Settles O16: the exchange keeps the size, so the second Swap completes too, and it takes the
first exchange back. -/
theorem swapTwiceRestores : Obligations.SwapTwiceRestores := by
  intro i n s hf hn
  obtain ⟨T, hST, hfirst⟩ := exec_swap_completes hf hn
  have hnT : n < (complete 1 T s).size := hn.trans_eq (stackSwap_length hST).symm
  obtain ⟨U, hTU, hsecond⟩ := exec_swap_completes hf hnT
  obtain rfl := stackSwap_involutive hST hTU
  exact ⟨_, _, hfirst, hsecond, rfl⟩

/-- Settles O19: the Swap completes with the exchanged stack, whose size, depths 0 and N, and other
depths are those of R108. -/
theorem swapCompletes : Obligations.SwapCompletes := by
  intro i n s hf hn
  obtain ⟨T, hT, hexec⟩ := exec_swap_completes hf hn
  obtain ⟨htop, hdepth⟩ := stackSwap_exchanges hT
  exact ⟨_, hexec, rfl, rfl, rfl, stackSwap_length hT, htop, hdepth,
    fun _ => stackSwap_getElem?_of_ne hT⟩

/-- Settles O25: by R55 the opcode byte decodes as a Swap of modifier N, and O58 gives the rule of
that byte on the modelled build; equal elements are written back where they stood. -/
theorem swapStepFollowsRule : Obligations.SwapStepFollowsRule := by
  intro s n b hr h1 h16 hb hop
  obtain ⟨-, -, hswap, -⟩ := decodeByteByRange Config.build b Laws.build_valid
  have hrule := everyBuildStepFollowsRules Config.build s b hr hb
  rw [(hswap n).mpr ⟨h1, h16, hop⟩, ← step_eq_stepWith] at hrule
  obtain ⟨hshallow, hexchange⟩ := hrule
  refine ⟨hshallow, fun x y hx hy => ⟨hexchange x y hx hy, ?_⟩⟩
  rintro rfl
  rw [set_eq_self_of_getElem? hx, set_eq_self_of_getElem? hy]

end Sys2Proof.Proofs
end

section
/-! PROOFS. The statements about IsZero (46_iszero.md): its completion, and the step at its opcode
byte. -/

open Sys2Proof Sys2Proof.Machine

namespace Sys2Proof.Proofs

/-- Settles O20: IsZero replaces the top whatever room the stack has, and its test is that of the
Word's value. -/
theorem isZeroCompletes : Obligations.IsZeroCompletes := by
  intro a rest s hS
  have hexec : exec .isZero s = execIsZero s := exec_eq_execWith .isZero s
  have hresult : isZeroResult a = if a.toNat = 0 then 1 else 0 := by
    rw [isZeroResult_eq]
    exact if_congr BitVec.toNat_eq rfl rfl
  rw [hexec, execIsZero_of_cons hS, hresult, complete]

/-- Settles O26: by R54 the opcode byte decodes as IsZero, and O58 gives the rule of that byte on the
modelled build. -/
theorem isZeroStepFollowsRule : Obligations.IsZeroStepFollowsRule := by
  intro s hr hb
  obtain ⟨-, -, -, hisZero, -⟩ :=
    decodeByteByRange Config.build Config.build.opIsZero Laws.build_valid
  have hrule := everyBuildStepFollowsRules Config.build s Config.build.opIsZero hr hb
  rwa [hisZero.mpr rfl, ← step_eq_stepWith] at hrule

end Sys2Proof.Proofs
end

section
/-! PROOFS. The statements about the exceptions (60_exceptions.md): which fault an instruction and a
step take, what taking it writes, and that the host can recover its cause until Reset. -/

open Sys2Proof Sys2Proof.Machine

namespace Sys2Proof.Proofs

/-! ## The fault that a family takes (R240)

A meaning that answers `raiseFault k s` has taken the fault `k`, also where `s` has it latched
already: an instruction that completes moves `pc`. -/

section Families

variable {c : Config} {n : Nat} {imm : List Byte} {s : State} {j k : Fault} {S : List Word}

@[simp] theorem raiseFault_inj : raiseFault j s = raiseFault k s ↔ j = k :=
  ⟨fun h => Option.some.inj (congrArg State.fault h), congrArg (raiseFault · s)⟩

theorem complete_ne_raiseFault (hn : 1 ≤ n) : complete n S s ≠ raiseFault k s := fun h => by
  have hpc : s.pc + n = s.pc := congrArg State.pc h
  omega

/-- R243, R242, R250: a Push tests for its operand bytes first. -/
theorem pushN_eq_raiseFault_iff :
    pushN c n imm s = .next (raiseFault k s) ↔
      (k = .truncatedOperand ∧ imm.length < n) ∨
        (k = .stackOverflow ∧ n ≤ imm.length ∧ s.size = c.stackCapacity) := by
  obtain ⟨hshort, he⟩ | ⟨hlen, hfull, he⟩ | ⟨hlen, hroom, he⟩ := pushN_cases c n imm s
  · simp [he, hshort, hshort.not_ge, eq_comm]
  · simp [he, hlen, hlen.not_gt, hfull, eq_comm]
  · simp [he, hlen.not_gt, hroom, complete_ne_raiseFault]

/-- R246, R242, R250: a Dup tests its depth first. -/
theorem dupN_eq_raiseFault_iff (hn : 1 ≤ n) :
    dupN c n s = .next (raiseFault k s) ↔
      (k = .indexOutOfRange ∧ s.size < n) ∨
        (k = .stackOverflow ∧ n ≤ s.size ∧ s.size = c.stackCapacity) := by
  obtain ⟨hdepth, he⟩ | ⟨hdepth, hfull, he⟩ | ⟨v, hv, hroom, he⟩ := dupN_cases c n s
  · have hshort : s.size < n := by omega
    simp [he, hshort, hshort.not_ge, eq_comm]
  · have hlen : n ≤ c.stackCapacity := by omega
    simp [he, hfull, hlen, hlen.not_gt, eq_comm]
  · have hlen : n ≤ s.size := Nat.le_of_pred_lt (List.getElem?_eq_some_iff.mp hv).1
    simp [he, hlen.not_gt, hroom, complete_ne_raiseFault]

/-- R246: a Swap can lack its depth only. -/
theorem swapN_eq_raiseFault_iff :
    swapN n s = .next (raiseFault k s) ↔ k = .indexOutOfRange ∧ s.size ≤ n := by
  obtain ⟨hdepth, he⟩ | ⟨a, b, -, hb, he⟩ := swapN_cases n s
  · simp [he, hdepth, eq_comm]
  · have hlen : n < s.size := (List.getElem?_eq_some_iff.mp hb).1
    simp [he, hlen, complete_ne_raiseFault]

/-- R241: IsZero can lack its one element only. -/
theorem execIsZero_eq_raiseFault_iff :
    execIsZero s = .next (raiseFault k s) ↔ k = .stackUnderflow ∧ s.size = 0 := by
  obtain ⟨hempty, he⟩ | ⟨a, rest, hS, he⟩ := execIsZero_cases s
  · simp [he, hempty, eq_comm]
  · simp [he, State.size, hS, complete_ne_raiseFault]

end Families

/-! ## The fault that an instruction takes -/

/-- The rows of R240 for the instruction with the form `f`, in the state `s` of the build `c`. -/
def Raises (c : Config) (f : Form) (s : State) (k : Fault) : Prop :=
  match f with
  | .push n imm =>
    (k = .truncatedOperand ∧ imm.length < n) ∨
      (k = .stackOverflow ∧ n ≤ imm.length ∧ s.size = c.stackCapacity)
  | .dup n =>
    (k = .indexOutOfRange ∧ s.size < n) ∨
      (k = .stackOverflow ∧ n ≤ s.size ∧ s.size = c.stackCapacity)
  | .swap n => k = .indexOutOfRange ∧ s.size ≤ n
  | .isZero => k = .stackUnderflow ∧ s.size = 0

theorem execWith_eq_raiseFault_iff {c : Config} {i : Instr} {s : State} {k : Fault} :
    execWith c i s = .next (raiseFault k s) ↔ Raises c i.form s k := by
  have hr := form_range i
  unfold execWith
  cases hf : i.form with rw [hf] at hr
  | push n imm => exact pushN_eq_raiseFault_iff
  | dup n => exact dupN_eq_raiseFault_iff hr.1
  | swap n => exact swapN_eq_raiseFault_iff
  | isZero => exact execIsZero_eq_raiseFault_iff

theorem exec_eq_raiseFault_iff {i : Instr} {s : State} {k : Fault} :
    exec i s = .next (raiseFault k s) ↔ Raises Config.build i.form s k := by
  rw [exec_eq_execWith, execWith_eq_raiseFault_iff]

/-! ## The fault that a step takes -/

/-- R240: a Running machine takes exactly the fault whose condition holds: the byte at `pc` selects the
family, and the operand bytes of a Push are those that the buffer still holds. -/
theorem stepWith_eq_raiseFault_iff {c : Config} {s : State} {k : Fault}
    (hr : status s = .running) :
    stepWith c s = .next (raiseFault k s) ↔ FaultCause c s k := by
  obtain ⟨b, hb, -⟩ := fetchBytes_of_running hr
  have hrange := decodeByte_range c b
  rw [stepWith_eq_runDecoded hr hb]
  cases hd : decodeByte c b with rw [hd] at hrange
  | push n =>
    have himm : ((s.code.drop (s.pc + 1)).take n).length = min n (s.len - s.pc - 1) := by
      rw [List.length_take, List.length_drop, State.len, Nat.sub_sub]
    rw [runDecoded, pushN_eq_raiseFault_iff, himm]
    cases k <;> simp [FaultCause, hb, hd, and_comm]
  | dup n =>
    rw [runDecoded, dupN_eq_raiseFault_iff hrange.1]
    cases k <;> simp [FaultCause, hb, hd, and_comm]
  | swap n =>
    rw [runDecoded, swapN_eq_raiseFault_iff]
    cases k <;> simp [FaultCause, hb, hd]
  | isZero =>
    rw [runDecoded, execIsZero_eq_raiseFault_iff]
    cases k <;> simp [FaultCause, hb, hd]
  | invalid =>
    rw [runDecoded]
    cases k <;> simp [FaultCause, hb, hd]

/-- R245: the fault latched after a step is one the step took, from a machine without a fault. -/
theorem eq_raiseFault_of_stepWith {c : Config} {s t : State} {k : Fault}
    (h : stepWith c s = .next t) (hk : t.fault = some k) :
    status s = .running ∧ t = raiseFault k s := by
  obtain ⟨hr, -, -, ⟨j, rfl⟩ | ⟨i, n, S, -, -, rfl⟩⟩ := stepWith_next_cases h
  · obtain rfl : j = k := Option.some.inj hk
    exact ⟨hr, rfl⟩
  · rw [complete_fault, ((status_eq_running_iff s).mp hr).1] at hk
    cases hk

/-! ## The cause of a latched fault (R248) -/

/-- R245: the condition of a fault reads `pc`, the buffer and the stack, which taking a fault keeps. -/
theorem faultCause_raiseFault_iff {c : Config} {s : State} {j k : Fault} :
    FaultCause c (raiseFault j s) k ↔ FaultCause c s k := Iff.rfl

theorem latchCaused_of_fault_eq_none (c : Config) {s : State} (h : s.fault = none) :
    LatchCaused c s := fun k hk => by rw [h] at hk; cases hk

/-- A step leaves no fault but one whose condition held, and still holds. -/
theorem latchCaused_of_stepWith {c : Config} {s t : State} (h : stepWith c s = .next t) :
    LatchCaused c t := by
  intro k hk
  obtain ⟨hr, rfl⟩ := eq_raiseFault_of_stepWith h hk
  exact faultCause_raiseFault_iff.mpr ((stepWith_eq_raiseFault_iff hr).mp h)

/-- Every transaction keeps that a latched fault has its cause: a load and a `Pop` are accepted in
Halted only, where no fault is latched. -/
theorem transactWith_keeps_latchCaused (c : Config) (cmd : HostCommand) (s : State)
    (h : LatchCaused c s) : LatchCaused c (transactWith c cmd s).1 := by
  have hhalted : ∀ s, status s = .halted → s.fault = none := fun s hs =>
    ((status_eq_halted_iff s).mp hs).1
  exact transactWith_keeps (latchCaused_of_fault_eq_none c rfl)
    (fun _ _ _ => latchCaused_of_stepWith)
    (fun bytes s _ ha => latchCaused_of_fault_eq_none c
      (hhalted s ((loadAccepted_iff c bytes s).mp ha).1))
    (fun s _ _ _ hs _ => latchCaused_of_fault_eq_none c (hhalted s hs)) cmd s h

/-! ## A faulted machine (R249) -/

/-- R249: with a fault latched there is no effect but that of Reset. -/
theorem transactWith_state_of_faulted {c : Config} {cmd : HostCommand} {s : State}
    (h : status s = .faulted) (hcmd : cmd ≠ .reset) : (transactWith c cmd s).1 = s := by
  have hhalted : status s ≠ .halted := by simp [h]
  have he := effect_transactWith c cmd s
  generalize (transactWith c cmd s).1 = t at he ⊢
  cases he with
  | kept => rfl
  | reset => exact absurd rfl hcmd
  | load bytes ha => exact absurd ((loadAccepted_iff c bytes s).mp ha).1 hhalted
  | step t ht =>
    have hr := (stepWith_next_cases ht).1
    rw [h] at hr; cases hr
  | execute bytes ha => exact absurd ((loadAccepted_iff c bytes s).mp ha).1 hhalted
  | pop w rest hs hS => exact absurd hs hhalted

/-! ## The obligations -/

/-- Settles O40: a step latches a fault on its cause only, the other transactions latch none, and the
cause reads what nothing writes until Reset. -/
theorem latchedFaultHasCause : Obligations.LatchedFaultHasCause := by
  refine ⟨fun s t _ ht => latchCaused_of_stepWith (step_eq_stepWith s ▸ ht), fun c => ?_⟩
  have hreset : LatchCaused c State.reset := latchCaused_of_fault_eq_none c rfl
  have hkeep := transactWith_keeps_latchCaused c
  exact ⟨hreset, fun _ _ _ => latchCaused_of_stepWith, hkeep,
    fun _ => reachable_induction hreset hkeep⟩

/-- Settles O27: the rule of every build, and so of the modelled one. -/
theorem stepFaultsExactlyOnCause : Obligations.StepFaultsExactlyOnCause :=
  ⟨fun s _ hr => step_eq_stepWith s ▸ stepWith_eq_raiseFault_iff hr,
    fun _ _ _ => stepWith_eq_raiseFault_iff⟩

/-- Settles O7: the row of `InvalidOpcode` in O27, at the opcode byte. -/
theorem invalidOpcodeExactly : Obligations.InvalidOpcodeExactly := by
  intro s b hr hb
  rw [stepFaultsExactlyOnCause.1 s _ hr]
  simp [FaultCause, hb]

/-- Settles O28: a fault is latched by taking it. -/
theorem faultWritesLatchOnly : Obligations.FaultWritesLatchOnly := by
  intro s t k h hk
  obtain ⟨-, rfl⟩ := eq_raiseFault_of_stepWith (step_eq_stepWith s ▸ h) hk
  exact ⟨rfl, rfl⟩

/-- Settles O29: the row of `TruncatedOperand` in O27, at a byte that R55 decodes as `PushN`. -/
theorem truncatedExactlyWhenShort : Obligations.TruncatedExactlyWhenShort := by
  intro s n b hr h1 h32 hb hop
  obtain ⟨hpush, -⟩ := decodeByteByRange Config.build b Laws.build_valid
  have hd : decodeByte Config.build b = .push n := (hpush n).mpr ⟨h1, h32, hop⟩
  rw [stepFaultsExactlyOnCause.1 s _ hr]
  simp [FaultCause, hb, hd, Nat.sub_sub]

/-- Settles O30: the rows of `IndexOutOfRange`, one per family. -/
theorem indexOutOfRangeExactly : Obligations.IndexOutOfRangeExactly := by
  intro i s
  rw [exec_eq_raiseFault_iff]
  cases i.form <;> simp [Raises]

/-- Settles O31: the rows of `StackOverflow`, one per family; a full stack of the modelled build is
deeper than every Dup reaches (R4), so a Dup's depth test passes there. -/
theorem stackOverflowExactly : Obligations.StackOverflowExactly := by
  intro i s
  have hr := form_range i
  have hcap : dupMax ≤ Config.build.stackCapacity := by decide
  rw [exec_eq_raiseFault_iff]
  cases hf : i.form with rw [hf] at hr
  | push n imm => simp [Raises]
  | dup n =>
    have hdepth : s.size = Config.build.stackCapacity → n ≤ s.size := fun hfull =>
      (hr.2.trans hcap).trans hfull.ge
    simpa [Raises] using hdepth
  | swap n => simp [Raises]
  | isZero => simp [Raises]

/-- Settles O32: the rows of `StackUnderflow`; no instruction but IsZero has its form. -/
theorem stackUnderflowExactly : Obligations.StackUnderflowExactly := by
  intro i s
  have hisZero : i = .isZero ↔ i.form = .isZero := ⟨fun h => h ▸ rfl, eq_isZero_of_form⟩
  rw [exec_eq_raiseFault_iff, hisZero]
  cases i.form <;> simp [Raises]

/-- Settles O43: Faulted is neither Running nor Halted, so the four transactions are refused; the
reads answer in every state (O49). -/
theorem faultedUntilReset : Obligations.FaultedUntilReset := by
  intro c s cmd hfault
  have hs : status s = .faulted := (status_eq_faulted_iff s).mpr hfault
  have hrunning : status s ≠ .running := by simp [hs]
  have hhalted : status s ≠ .halted := by simp [hs]
  have hload : ∀ bytes, ¬ loadAccepted c bytes s = true := fun _ => not_loadAccepted (.inl hhalted)
  refine ⟨transactWith_state_of_faulted hs, ?step, ?pop,
    fun bytes => ⟨congrArg Prod.snd (if_neg (hload bytes)), congrArg Prod.snd (if_neg (hload bytes))⟩,
    rfl, ?readTop, ?readElementAt, congrArg HostResponse.status hs, rfl, rfl, rfl, rfl, rfl⟩
  case step => rw [step_transaction_of_not_running hrunning]
  case pop => rw [(hostPopRule c s).1 hhalted]
  case readTop =>
    intro v rest hS
    obtain ⟨-, htop, -⟩ := stackPortReads c s 0
    rw [htop v rest hS]
  case readElementAt =>
    intro i v hv
    obtain ⟨-, -, -, helement, -⟩ := stackPortReads c s i
    rw [helement v hv]

end Sys2Proof.Proofs
end

section
/-! PROOFS. The statements about reset (70_reset_and_hazards.md). -/

open Sys2Proof Sys2Proof.Machine

namespace Sys2Proof.Proofs

/-- Settles O44: the transaction ignores the state before it, so each field is that of R270's table, and
a second Reset answers the same state. -/
theorem resetClearsEverything : Obligations.ResetClearsEverything := fun _ _ =>
  ⟨rfl, rfl, rfl, rfl, rfl, rfl, rfl, (status_eq_halted_iff _).mpr ⟨rfl, Nat.le_refl 0⟩, rfl⟩

end Sys2Proof.Proofs
end
